-- ==== Sys2Proof/Word.lean ====
section
/-! DEFINITION. The word types of the KQR core: bytes (field elements, region bytes) and the 32-bit register and command words. -/

namespace Sys2Proof

/-- A byte: a GF(256) element (R110) or one byte of a region (R65). -/
abbrev Byte := BitVec 8

/-- A register, bus or command word (R11: register width 32 bits, host data width 32 bits). -/
abbrev Word := BitVec 32

/-- A host byte address (R60: 17 bits). -/
abbrev Addr := BitVec 17

/-- A mask identifier 0..7 (R11). -/
abbrev MaskId := Fin 8

end Sys2Proof
end

