-- ==== Sys2Proof/Syntax.lean ====
section
/-! DEFINITION. The commands of the KQR core: one constructor per row of the opcode map (R98). -/

namespace Sys2Proof

/-- A command. Field elements are bytes, counts and indexes are numbers (their range is WellFormed's), masks are
identifiers 0..7 (R99). -/
inductive Instr where
  /-- NOP (R240). -/
  | nop
  /-- SRESET (R241). -/
  | sreset
  /-- GF_ADD A, B (R118). -/
  | gfAdd (a b : Byte)
  /-- GF_MUL A, B (R119). -/
  | gfMul (a b : Byte)
  /-- GF_INV A (R120). -/
  | gfInv (a : Byte)
  /-- GF_EXP A, an exponent (R121). -/
  | gfExp (n : Nat)
  /-- GF_LOG A (R122). -/
  | gfLog (a : Byte)
  /-- GEN_POLY C (R134). -/
  | genPoly (c : Nat)
  /-- RS_ENC C (R135). -/
  | rsEnc (c : Nat)
  /-- ECC_BLOCKS (R150). -/
  | eccBlocks
  /-- INTERLEAVE (R161). -/
  | interleave
  /-- BUILD_FUNC MASK (R188). -/
  | buildFunc (m : MaskId)
  /-- BUILD MASK (R189). -/
  | build (m : MaskId)
  /-- MASK_EVAL X, Y, MASK, BIT (R213): x is the column, y the row. -/
  | maskEval (x y : Nat) (m : MaskId) (bit : Bool)
  /-- SCORE (R220). -/
  | score
  /-- AUTO_MASK (R222). -/
  | autoMask
  /-- GENERATE MASK (R242). -/
  | generate (m : MaskId)
  /-- GENERATE.AUTO (R243). -/
  | generateAuto
deriving DecidableEq, Repr

end Sys2Proof
end

