-- ==== Sys2Proof/WellFormed.lean ====
section
/-! DEFINITION. Which commands can be encoded: the operand ranges of R99 and R102 that the types of Instr do not already say. -/

namespace Sys2Proof

/-- The operand ranges of R99 and R102: an exponent A, a count C and the indexes X and Y are 0..255. Field elements,
masks and BIT are in range by their types. -/
def Instr.wf : Instr → Bool
  | .gfExp n => n < 256
  | .genPoly c => c < 256
  | .rsEnc c => c < 256
  | .maskEval x y _ _ => x < 256 && y < 256
  | .nop => true
  | .sreset => true
  | .gfAdd _ _ => true
  | .gfMul _ _ => true
  | .gfInv _ => true
  | .gfLog _ => true
  | .eccBlocks => true
  | .interleave => true
  | .buildFunc _ => true
  | .build _ => true
  | .score => true
  | .autoMask => true
  | .generate _ => true
  | .generateAuto => true

/-- An encodable command. -/
abbrev Instr.WellFormed (i : Instr) : Prop := i.wf = true

end Sys2Proof
end

