-- ==== Sys2Proof/Decode.lean ====
section
/-! DEFINITION. Decoding and encoding of command words (R90 to R101): the decoder, total on 32-bit words, then the encoder from the same formats. -/

namespace Sys2Proof

/-- `v[hi:lo]`, the field of bits hi down to lo, zero-extended (R13, R99). -/
def slice (w : Word) (hi lo : Nat) : Nat := w.toNat / 2 ^ lo % 2 ^ (hi + 1 - lo)

/-- Bits [7:0], the opcode OPC (R90). -/
def opcode (w : Word) : Nat := slice w 7 0

/-- The mask identifier whose lowest bit is bit `lo` (R95, R96, R97). -/
def maskField (w : Word) (lo : Nat) : MaskId := Fin.ofNat 8 (slice w (lo + 2) lo)

/-- Format N (R91): bits [31:8] must be 0. -/
def decodeN (w : Word) (i : Instr) : Option Instr :=
  if slice w 31 8 = 0 then some i else none

/-- Format G2 (R92): A in [15:8], B in [23:16], bits [31:24] must be 0. -/
def decodeG2 (w : Word) (mk : Byte → Byte → Instr) : Option Instr :=
  if slice w 31 24 = 0 then some (mk (BitVec.ofNat 8 (slice w 15 8)) (BitVec.ofNat 8 (slice w 23 16))) else none

/-- Formats G1 and C (R93, R94): one operand in [15:8], bits [31:16] must be 0. -/
def decodeG1 (w : Word) (mk : Nat → Instr) : Option Instr :=
  if slice w 31 16 = 0 then some (mk (slice w 15 8)) else none

/-- Format B (R95): MASK in [10:8], bits [31:11] must be 0. -/
def decodeB (w : Word) (mk : MaskId → Instr) : Option Instr :=
  if slice w 31 11 = 0 then some (mk (maskField w 8)) else none

/-- Format M (R96): X in [15:8], Y in [23:16], MASK in [26:24], BIT in [27], bits [31:28] must be 0. -/
def decodeM (w : Word) (mk : Nat → Nat → MaskId → Bool → Instr) : Option Instr :=
  if slice w 31 28 = 0 then
    some (mk (slice w 15 8) (slice w 23 16) (maskField w 24) (decide (slice w 27 27 = 1)))
  else none

/-- Format X (R97): MASK in [10:8], AUTO in [11], bits [31:12] must be 0, and MASK must be 0 when AUTO = 1. -/
def decodeX (w : Word) (mk : MaskId → Instr) (auto : Instr) : Option Instr :=
  if slice w 31 12 = 0 then
    if slice w 11 11 = 0 then some (mk (maskField w 8)) else if slice w 10 8 = 0 then some auto else none
  else none

/-- The decoder (R98): the command a word selects; none exactly for the illegal words of R100. The opcodes that stand
in no line below are R100's unassigned ones. -/
def decodeWord (w : Word) : Option Instr :=
  match opcode w with
  | 0x00 => decodeN w .nop
  | 0x01 => decodeN w .sreset
  | 0x10 => decodeG2 w .gfAdd
  | 0x11 => decodeG2 w .gfMul
  | 0x12 => decodeG1 w fun a => .gfInv (BitVec.ofNat 8 a)
  | 0x13 => decodeG1 w .gfExp
  | 0x14 => decodeG1 w fun a => .gfLog (BitVec.ofNat 8 a)
  | 0x20 => decodeG1 w .genPoly
  | 0x21 => decodeG1 w .rsEnc
  | 0x30 => decodeN w .eccBlocks
  | 0x31 => decodeN w .interleave
  | 0x40 => decodeB w .buildFunc
  | 0x41 => decodeB w .build
  | 0x50 => decodeM w .maskEval
  | 0x51 => decodeN w .score
  | 0x52 => decodeN w .autoMask
  | 0x60 => decodeX w .generate .generateAuto
  | _ => none

/-- The instruction the decoder reads from the word whose low `nbits` bits are `w`, the bits above being 0 (a command is
one 32-bit word, R90, so the table's bit numbers are the word's own). -/
def decodeTableWord (nbits w : Nat) : Option Instr := decodeWord (BitVec.ofNat 32 (w % 2 ^ nbits))

/-- The fields of a word put in their places: the opcode in [7:0], the rest from bit 8 up. -/
def assembleWord (opc rest : Nat) : Word := BitVec.ofNat 32 (opc + 2 ^ 8 * rest)

/-- The encoder (R91 to R98): the word of a well-formed command. -/
def encode : Instr → Word
  | .nop => assembleWord 0x00 0
  | .sreset => assembleWord 0x01 0
  | .gfAdd a b => assembleWord 0x10 (a.toNat + 2 ^ 8 * b.toNat)
  | .gfMul a b => assembleWord 0x11 (a.toNat + 2 ^ 8 * b.toNat)
  | .gfInv a => assembleWord 0x12 a.toNat
  | .gfExp n => assembleWord 0x13 n
  | .gfLog a => assembleWord 0x14 a.toNat
  | .genPoly c => assembleWord 0x20 c
  | .rsEnc c => assembleWord 0x21 c
  | .eccBlocks => assembleWord 0x30 0
  | .interleave => assembleWord 0x31 0
  | .buildFunc m => assembleWord 0x40 m.val
  | .build m => assembleWord 0x41 m.val
  | .maskEval x y m bit => assembleWord 0x50 (x + 2 ^ 8 * y + 2 ^ 16 * m.val + 2 ^ 19 * bit.toNat)
  | .score => assembleWord 0x51 0
  | .autoMask => assembleWord 0x52 0
  | .generate m => assembleWord 0x60 m.val
  | .generateAuto => assembleWord 0x60 (2 ^ 3)

end Sys2Proof
end

