-- ==== Sys2Proof/Config.lean ====
section
/-! DEFINITION. What an implementation fixes: the six model parameters the spec leaves open (R12) with their defaults, and the free values. -/

namespace Sys2Proof

/-- The model parameters left open (R12, 93_implementation_defined.md list 3). The model takes each as an argument:
State carries one `Params`, no step changes it, and every meaning reads it. -/
structure Params where
  /-- GF_POLY: the 9-bit reduction polynomial of GF(256) (D11). -/
  gfPoly : BitVec 9
  /-- GRID_TRANSPOSE: the whole symbol is stored transposed (D20). -/
  gridTranspose : Bool
  /-- REMAINDER_MASKED: modules beyond the codeword stream are masked (D19). -/
  remainderMasked : Bool
  /-- SCORE_INCLUDES_QZ: the score is computed over the frame with its quiet zone (D21). -/
  scoreIncludesQz : Bool
  /-- R3_PATTERNS: the finder-like patterns of Rule 3, true for Dark (D22). -/
  r3Patterns : List (List Bool)
  /-- R4_ABS: Rule 4 takes an absolute value (D23). -/
  r4Abs : Bool
deriving DecidableEq, Repr

/-- The defaults of R12. -/
def Params.default : Params where
  gfPoly := 0x11D
  gridTranspose := false
  remainderMasked := false
  scoreIncludesQz := false
  r3Patterns :=
    [[true, false, true, true, true, false, true, false, false, false, false],
     [false, false, false, false, true, false, true, true, true, false, true]]
  r4Abs := false

/-- A byte the spec leaves unspecified (R73: a host read of a byte never written). DESIGN CHOICE (log 4): safe,
nothing can evaluate it. -/
opaque Config.freeByte : Nat → Byte

/-- A register word the spec leaves unspecified (R71: a result register read while BUSY). DESIGN CHOICE (log 4):
safe. -/
opaque Config.freeWord : Nat → Word

/-- The logarithm of an element that has none (R112: LOG[0], or a GF_POLY for which 2 is not primitive).
DESIGN CHOICE (log 8): safe. -/
opaque Config.freeLog : BitVec 9 → Byte → Byte

end Sys2Proof
end

