-- ==== Sys2Proof/Machine/State.lean ====
section
/-! DEFINITION. The state of the KQR core (R20 to R51), the host's events and responses, the reasons a step stops, and the state after reset. -/

namespace Sys2Proof.Machine

/-- The byte regions of the core as one memory over the host byte address space (R62): the listed addresses are the bytes
whose written bit is true (R48), an unlisted address has no value. -/
abbrev Memory := List Host.Cell

/-- The response of the slave port (R60). -/
inductive Resp where
  | okay
  | error
deriving DecidableEq, Repr

/-- A host bus transaction (R60). -/
inductive Txn where
  /-- `Read(addr)`. -/
  | read (addr : Addr)
  /-- `Write(addr, wdata, wstrb)`. -/
  | write (addr : Addr) (wdata : Word) (wstrb : BitVec 4)
deriving DecidableEq, Repr

/-- What the port answers to a transaction (R60). -/
inductive Response where
  /-- The answer to a read: `(resp, rdata)`. -/
  | read (resp : Resp) (rdata : Word)
  /-- The answer to a write: `resp`. -/
  | write (resp : Resp)
deriving DecidableEq, Repr

/-- What happens next at the core's ports, and the engine's turns between (R4, R61, R280). DESIGN CHOICE (log 1, log 10). -/
inductive Event where
  /-- The host performs one transaction. -/
  | host (t : Txn)
  /-- The engine has its turn: it completes the pending command, if there is one. -/
  | engine
  /-- The reset input `rst` is asserted (true) or released (false). -/
  | rst (asserted : Bool)
deriving DecidableEq, Repr

/-- The state of the core (R20). Fields the spec names first, the model's own (`params`, `events`, `responses`, `draws`)
last. STATUS.BUSY is `pending` (R46), the written bits are the addresses `mem` lists (R48). -/
structure State where
  /-- CTRL.IE (R25). -/
  ctrlIE : Bool
  /-- STATUS.DONE (R26). -/
  done : Bool
  /-- STATUS.ERR (R26). -/
  err : Bool
  /-- STATUS.OVR (R26). -/
  ovr : Bool
  /-- STATUS.ERRCODE (R26, R251). -/
  errCode : BitVec 4
  /-- LASTCMD, read at CMD (R28). -/
  lastCmd : Word
  /-- The accepted command not yet completed (R46). -/
  pending : Option Word
  /-- CFG.VERSION (R29). -/
  version : BitVec 6
  /-- CFG.ECL (R29). -/
  ecl : BitVec 2
  /-- RESULT bits [7:0] (R30). -/
  result : Byte
  /-- MASKSEL.MASK (R31). -/
  mask : BitVec 3
  /-- MASKSEL.MVALID (R31). -/
  mvalid : Bool
  /-- SCORE, two's complement (R32). -/
  score : Word
  /-- SCORE_R1 (R33). -/
  scoreR1 : Word
  /-- SCORE_R2 (R33). -/
  scoreR2 : Word
  /-- SCORE_R3 (R33). -/
  scoreR3 : Word
  /-- SCORE_R4 (R33). -/
  scoreR4 : Word
  /-- SCORE_DARK bits [15:0] (R33). -/
  scoreDark : BitVec 16
  /-- SCORE_N bits [15:0] (R33). -/
  scoreN : BitVec 16
  /-- SCORE_M0..SCORE_M7 (R34). -/
  scoreM : Vector Word 8
  /-- RS_SRC bits [11:0] (R35). -/
  rsSrc : BitVec 12
  /-- RS_LEN bits [11:0] (R35). -/
  rsLen : BitVec 12
  /-- RS_DST bits [11:0] (R35). -/
  rsDst : BitVec 12
  /-- DATA, ECC, CW, GEN and GRID with their written bits (R41 to R45, R48). -/
  mem : Memory
  /-- The model-only flag `faulted` (R48, R264). -/
  faulted : Bool
  /-- The level of the reset input (R280). -/
  rst : Bool
  /-- The model parameters (R12), constant. -/
  params : Params
  /-- What happens next at the ports (log 1). -/
  events : List Event
  /-- The responses so far, newest first (log 3). -/
  responses : List Response
  /-- How many host reads have drawn free values (log 4). -/
  draws : Nat
deriving DecidableEq, Repr

/-- The reasons the machine stops. -/
inductive Fault where
  /-- ModelFault(READ_UNWRITTEN) (R264): raised by RS_ENC, ECC_BLOCKS, INTERLEAVE, BUILD, SCORE, AUTO_MASK, GENERATE and
  GENERATE.AUTO when they read a byte whose written bit is false (R74). Safe: the hardware computes from unknown RAM
  contents where the model stops. -/
  | readUnwritten
deriving DecidableEq, Repr

/-- The reasons the model gives no meaning. -/
inductive Refusal where
  /-- An instruction whose arm in exec gives no meaning yet; raised by exec only. Safe. -/
  | notModelled (mnemonic : String)
deriving DecidableEq, Repr

/-- The state right after a hardware reset (R50, R280): every register at its reset value, nothing pending, no byte
written. The model's own fields: the default parameters (log 7), no event, no response, no draw. -/
def State.reset : State where
  ctrlIE := false
  done := false
  err := false
  ovr := false
  errCode := 0
  lastCmd := 0
  pending := none
  version := 0
  ecl := 0
  result := 0
  mask := 0
  mvalid := false
  score := 0
  scoreR1 := 0
  scoreR2 := 0
  scoreR3 := 0
  scoreR4 := 0
  scoreDark := 0
  scoreN := 0
  scoreM := Vector.replicate 8 0
  rsSrc := 0
  rsLen := 0
  rsDst := 0
  mem := []
  faulted := false
  rst := false
  params := Params.default
  events := []
  responses := []
  draws := 0

end Sys2Proof.Machine
end

