-- ==== Sys2Proof/Machine/Flags.lean ====
section
/-! DEFINITION. The flags of STATUS (R26, R27), the error codes (R251), BUSY (R46) and the interrupt output (R51, R262). -/

namespace Sys2Proof.Machine

/-- The command errors of R251. -/
inductive CommandError where
  /-- The word matches no row of the opcode map (R252). -/
  | illegalCmd
  /-- CFG.VERSION outside 1..40 (R253). -/
  | unsupportedVersion
  /-- A field operand 0 where the field has no value (R254). -/
  | gfZero
  /-- An operand count or offset out of range (R255). -/
  | range
  /-- A scored GRID cell is not Light or Dark (R257). -/
  | gridIncomplete
deriving DecidableEq, Repr

/-- The code of an error in STATUS.ERRCODE (R251); 0 is NONE and 6..15 are never produced. -/
def CommandError.code : CommandError → BitVec 4
  | .illegalCmd => 1
  | .unsupportedVersion => 2
  | .gfZero => 3
  | .range => 4
  | .gridIncomplete => 5

/-- STATUS.BUSY: 1 exactly when pending is not empty (R46). -/
def State.busy (s : State) : Bool := s.pending.isSome

/-- The interrupt output, a level: `irq` = CTRL.IE and STATUS.DONE (R51, R262). -/
def State.irq (s : State) : Bool := s.ctrlIE && s.done

/-- A flag as the bit `i` of a word. -/
def flagBit (b : Bool) (i : Nat) : Word := BitVec.ofNat 32 (b.toNat * 2 ^ i)

/-- STATUS as a host read gives it (R26): BUSY [0], DONE [1], ERR [2], OVR [3], ERRCODE [11:8], the rest 0. -/
def State.statusWord (s : State) : Word :=
  flagBit s.busy 0 ||| flagBit s.done 1 ||| flagBit s.err 2 ||| flagBit s.ovr 3 |||
    (s.errCode.setWidth 32 <<< 8)

/-- A host write of `w` to STATUS (R27): bit 1 clears DONE, bit 2 clears ERR and ERRCODE, bit 3 clears OVR; a bit
written 0 leaves its field. -/
def State.clearStatus (s : State) (w : Word) : State :=
  { s with
    done := s.done && !w.getLsbD 1
    err := s.err && !w.getLsbD 2
    errCode := if w.getLsbD 2 then 0 else s.errCode
    ovr := s.ovr && !w.getLsbD 3 }

/-- The STATUS and hidden-state update that ends every completion step (R256): BUSY <- 0, DONE <- 1, pending <- empty. -/
def State.finish (s : State) : State := { s with done := true, pending := none }

/-- The error part of a completion step (R256): ERR <- 1, ERRCODE <- e. -/
def State.recordError (s : State) (e : CommandError) : State := { s with err := true, errCode := e.code }

end Sys2Proof.Machine
end

