-- ==== Sys2Proof/Machine/Ops.lean ====
section
/-! DEFINITION. The named operations over memory and registers: reading and writing the byte memory (R65, R67, R74), the regions (R62), accepting a command and completing it with success or with an error (R256), the resets (R241, R280). -/

namespace Sys2Proof.Machine

/-- What a step of the core answers. -/
abbrev Result := Host.Outcome State Fault Refusal

/-! ## The byte memory -/

/-- The byte at `a` when its written bit is true (R48, log 5). -/
def Memory.read? : Memory → Nat → Option Byte
  | [], _ => none
  | (k, b) :: m, a => if k = a then some b else Memory.read? m a

/-- The bytes `bs` at the addresses from `a` up (R65: byte i of a region is at base + i). -/
def Memory.cells : Nat → List Byte → Memory
  | _, [] => []
  | a, b :: bs => (a, b) :: Memory.cells (a + 1) bs

/-- Write the bytes `bs` at the addresses from `a` up and set their written bits (R67, R74). -/
def Memory.write (m : Memory) (a : Nat) (bs : List Byte) : Memory :=
  m.filter (fun c => c.1 < a) ++ Memory.cells a bs ++ m.filter (fun c => a + bs.length ≤ c.1)

/-- The listed bytes of the addresses a..a+n-1. -/
def Memory.window (m : Memory) (a n : Nat) : Memory := m.filter (fun c => a ≤ c.1 ∧ c.1 < a + n)

/-- The n bytes at a..a+n-1, none when one of them was never written. -/
def Memory.readBytes (m : Memory) : Nat → Nat → Option (List Byte)
  | _, 0 => some []
  | a, n + 1 =>
    match m.read? a, m.readBytes (a + 1) n with
    | some b, some bs => some (b :: bs)
    | _, _ => none

/-- The canonical form: addresses strictly rising, so that equal memories are equal lists. -/
def Memory.wf : Memory → Bool
  | [] => true
  | [_] => true
  | c :: d :: m => c.1 < d.1 && Memory.wf (d :: m)

/-! ## The regions -/

/-- The byte regions of R62. -/
inductive Region where
  | data
  | ecc
  | cw
  | gen
  | grid
deriving DecidableEq, Repr

/-- The first host byte address of a region (R62). -/
def Region.base : Region → Nat
  | .data => 0x1000
  | .ecc => 0x2000
  | .cw => 0x3000
  | .gen => 0x4000
  | .grid => 0x10000

/-- The bytes a region's window has on the bus (R62); GRID's last 79 are padding (R41, R68). -/
def Region.size : Region → Nat
  | .data => 4096
  | .ecc => 4096
  | .cw => 4096
  | .gen => 256
  | .grid => 34304

/-- The frame cells of GRID, 185 × 185 (R41): the bytes of its window that hold anything. -/
def frameSide : Nat := 185

/-- The bytes of a region that hold state: all of them, but for GRID's padding (R41, R68). -/
def Region.held : Region → Nat
  | .grid => frameSide * frameSide
  | r => r.size

/-- `MemRead(REGION, i, n)` by the engine (R14, R74): exact bytes, none when one of them was never written. -/
def State.load (s : State) (r : Region) (i n : Nat) : Option (List Byte) :=
  (s.mem.window (r.base + i) n).readBytes (r.base + i) n

/-- `MemWrite(REGION, i, n, list)` by the engine (R14, R74). -/
def State.store (s : State) (r : Region) (i : Nat) (bs : List Byte) : State :=
  { s with mem := s.mem.write (r.base + i) bs }

/-! ## Registers -/

/-- `R.RESULT <- zext_32(b)` (R30). -/
def State.setResult (s : State) (b : Byte) : State := { s with result := b }

/-- `R.MASKSEL <- MASK | (1 << 3)` (R31). -/
def State.setMask (s : State) (m : MaskId) : State := { s with mask := BitVec.ofNat 3 m.val, mvalid := true }

/-! ## Acceptance and completion -/

/-- Acceptance of the command word `w` (R28, R256): LASTCMD and pending hold it, BUSY goes to 1, DONE, ERR and ERRCODE
to 0. -/
def State.accept (s : State) (w : Word) : State :=
  { s with lastCmd := w, pending := some w, done := false, err := false, errCode := 0 }

/-- A command error (R250, R256): the one exception of this hardware. The command completes with ERR and its code in
STATUS and with no other effect. There is no return from it (R263). -/
def State.raise (s : State) (e : CommandError) : State := (s.recordError e).finish

/-- The end of a completion step whose effect ran (R256): success, or ModelFault(READ_UNWRITTEN) when the effect read a
byte never written (R74, R264). -/
def complete : Option State → Result
  | some s => .next s.finish
  | none => .fault .readUnwritten

/-! ## Resets -/

/-- The effect of SRESET (R241): configuration, result and score registers to their reset values and OVR to 0; CTRL,
LASTCMD, the memories and the written bits stay. -/
def State.softReset (s : State) : State :=
  { s with
    version := 0, ecl := 0, result := 0, mask := 0, mvalid := false
    score := 0, scoreR1 := 0, scoreR2 := 0, scoreR3 := 0, scoreR4 := 0
    scoreDark := 0, scoreN := 0, scoreM := Vector.replicate 8 0
    rsSrc := 0, rsLen := 0, rsDst := 0, ovr := false }

/-- The hardware reset (R50, R280, R281, R282), at the edge that leaves the reset input at `level`: every register at
its reset value, the pending command abandoned, no byte written. `faulted` keeps its value, and so do the model's own
fields (log 10). -/
def State.hardReset (s : State) (level : Bool) : State :=
  { State.reset with
    rst := level, faulted := s.faulted, params := s.params
    events := s.events, responses := s.responses, draws := s.draws }

end Sys2Proof.Machine
end

