-- ==== Sys2Proof/Machine/Tables.lean ====
section
/-! DEFINITION. The read-only tables and closed forms of the spec: capacity (R140 to R149), alignment coordinates (R177), format information (R179) and version information (R175). -/

namespace Sys2Proof.Machine

/-- The four error-correction levels (R11, R29). -/
inductive Level where
  | L
  | M
  | Q
  | H
deriving DecidableEq, Repr

/-- The level CFG.ECL encodes: 0 = L, 1 = M, 2 = Q, 3 = H (R29). -/
def Level.ofBits (b : BitVec 2) : Level :=
  match b.toNat with
  | 0 => .L
  | 1 => .M
  | 2 => .Q
  | _ => .H

/-- The side of a symbol of version v: size = 4·v + 17 (R11, R170). -/
def side (v : Nat) : Nat := 4 * v + 17

/-- C, the correction codewords per block, by version 1..40 (R141). -/
def eccPerBlockTable : Level → List Nat
  | .L =>
    [7, 10, 15, 20, 26, 18, 20, 24, 30, 18, 20, 24, 26, 30, 22, 24, 28, 30, 28, 28] ++
    [28, 28, 30, 30, 26, 28, 30, 30, 30, 30, 30, 30, 30, 30, 30, 30, 30, 30, 30, 30]
  | .M =>
    [10, 16, 26, 18, 24, 16, 18, 22, 22, 26, 30, 22, 22, 24, 24, 28, 28, 26, 26, 26] ++
    [26, 28, 28, 28, 28, 28, 28, 28, 28, 28, 28, 28, 28, 28, 28, 28, 28, 28, 28, 28]
  | .Q =>
    [13, 22, 18, 26, 18, 24, 18, 22, 20, 24, 28, 26, 24, 20, 30, 24, 28, 28, 26, 30] ++
    [28, 30, 30, 30, 30, 28, 30, 30, 30, 30, 30, 30, 30, 30, 30, 30, 30, 30, 30, 30]
  | .H =>
    [17, 28, 22, 16, 22, 28, 26, 26, 24, 28, 24, 28, 22, 24, 24, 30, 28, 28, 26, 28] ++
    [30, 24, 30, 30, 30, 30, 30, 30, 30, 30, 30, 30, 30, 30, 30, 30, 30, 30, 30, 30]

/-- NB, the number of blocks, by version 1..40 (R142). -/
def blockCountTable : Level → List Nat
  | .L =>
    [1, 1, 1, 1, 1, 2, 2, 2, 2, 4, 4, 4, 4, 4, 6, 6, 6, 6, 7, 8] ++
    [8, 9, 9, 10, 12, 12, 12, 13, 14, 15, 16, 17, 18, 19, 19, 20, 21, 22, 24, 25]
  | .M =>
    [1, 1, 1, 2, 2, 4, 4, 4, 5, 5, 5, 8, 9, 9, 10, 10, 11, 13, 14, 16] ++
    [17, 17, 18, 20, 21, 23, 25, 26, 28, 29, 31, 33, 35, 37, 38, 40, 43, 45, 47, 49]
  | .Q =>
    [1, 1, 2, 2, 4, 4, 6, 6, 8, 8, 8, 10, 12, 16, 12, 17, 16, 18, 21, 20] ++
    [23, 23, 25, 27, 29, 34, 34, 35, 38, 40, 43, 45, 48, 51, 53, 56, 59, 62, 65, 68]
  | .H =>
    [1, 1, 2, 4, 4, 4, 5, 6, 8, 8, 11, 11, 16, 16, 18, 16, 19, 21, 25, 25] ++
    [25, 34, 30, 32, 35, 37, 40, 42, 45, 48, 51, 54, 57, 60, 63, 66, 70, 74, 77, 81]

/-- C for (v, level) (R141). -/
def eccPerBlock (v : Nat) (lv : Level) : Nat := (eccPerBlockTable lv).getD (v - 1) 0

/-- NB for (v, level) (R142). -/
def blockCount (v : Nat) (lv : Level) : Nat := (blockCountTable lv).getD (v - 1) 0

/-- R(v), the number of data-area modules (R145). -/
def dataModules (v : Nat) : Nat :=
  (16 * v + 128) * v + 64 - (if 2 ≤ v then (25 * (v / 7 + 2) - 10) * (v / 7 + 2) - 55 else 0) -
    (if 7 ≤ v then 36 else 0)

/-- T = R div 8, the total number of codewords (R145). -/
def totalCodewords (v : Nat) : Nat := dataModules v / 8

/-- The number of remainder modules, R − 8·T (R145). -/
def remainderModules (v : Nat) : Nat := dataModules v - 8 * totalCodewords v

/-- D = T − NB·C, the data codewords (R146). -/
def dataCodewords (v : Nat) (lv : Level) : Nat := totalCodewords v - blockCount v lv * eccPerBlock v lv

/-- NS = NB − (T mod NB), the number of short blocks (R146). -/
def shortBlocks (v : Nat) (lv : Level) : Nat := blockCount v lv - totalCodewords v % blockCount v lv

/-- KS = (T div NB) − C, the data codewords of a short block (R146). -/
def shortLength (v : Nat) (lv : Level) : Nat := totalCodewords v / blockCount v lv - eccPerBlock v lv

/-- start(b) = b·KS + max(0, b − NS), the DATA offset of block b (R148). -/
def blockStart (v : Nat) (lv : Level) (b : Nat) : Nat := b * shortLength v lv + (b - shortBlocks v lv)

/-- len(b) = KS, and one more for the long blocks b ≥ NS (R148). -/
def blockLength (v : Nat) (lv : Level) (b : Nat) : Nat :=
  shortLength v lv + (if shortBlocks v lv ≤ b then 1 else 0)

/-- AL(v), the alignment coordinate list (R177): empty for v = 1, else 6 and then s − 7 down in steps, in rising order. -/
def alignmentCoords (v : Nat) : List Nat :=
  if v = 1 then []
  else
    let n := v / 7 + 2
    let step := 2 * ((8 * v + 3 * n + 5) / (4 * n - 4))
    6 :: (List.range (n - 1)).map fun i => side v - 7 - (n - 2 - i) * step

/-- One step of the polynomial divisions of R175 and R179: `r <- (r << 1) xor ((r >> top) · gen)`. -/
def bchStep (top gen r : Nat) : Nat := (r <<< 1) ^^^ ((r >>> top) * gen)

/-- VERINFO(v), the 18-bit version information (R175). -/
def verInfo (v : Nat) : Nat := (v <<< 12) ||| (Nat.repeat (bchStep 11 0x1F25) 12 v)

/-- The level bits E of the format information: 1 for L, 0 for M, 3 for Q, 2 for H (R179). -/
def Level.formatBits : Level → Nat
  | .L => 1
  | .M => 0
  | .Q => 3
  | .H => 2

/-- FMTINFO(ECL, MASK), the 15-bit format information (R179). -/
def fmtInfo (lv : Level) (m : MaskId) : Nat :=
  let data := (lv.formatBits <<< 3) ||| m.val
  ((data <<< 10) ||| Nat.repeat (bchStep 9 0x537) 10 data) ^^^ 0x5412

end Sys2Proof.Machine
end

