-- ==== Sys2Proof/Machine/Operands.lean ====
section
/-! DEFINITION. The operands a command takes from registers (R99): the version and level of CFG for the symbol commands (R29, R253) and the window of RS_ENC (R35, R135), and the bits a field operand stands for. -/

namespace Sys2Proof.Machine

/-- The level of CFG.ECL (R29). -/
def State.level (s : State) : Level := Level.ofBits s.ecl

/-- CFG.VERSION when it is legal, 1..40 (R29). -/
def State.symbolVersion (s : State) : Option Nat :=
  if 1 ≤ s.version.toNat ∧ s.version.toNat ≤ 40 then some s.version.toNat else none

/-- The check every symbol command makes before anything else (R253, R258): UNSUPPORTED_VERSION, or the command at the
version of CFG. -/
def withVersion (s : State) (k : Nat → Result) : Result :=
  match s.symbolVersion with
  | none => .next (s.raise .unsupportedVersion)
  | some v => k v

/-- Whether the window of RS_ENC is in range for C correction codewords (R135, R255). -/
def State.rsInRange (s : State) (c : Nat) : Bool :=
  c ≠ 0 && s.rsSrc.toNat + s.rsLen.toNat ≤ 4096 && s.rsDst.toNat + c ≤ 4096

/-- The bits of a codeword, most significant first (R162). -/
def bitsOf (b : Byte) : List Bool := [7, 6, 5, 4, 3, 2, 1, 0].map fun i => b.getLsbD i

/-- The bit of a truth value, as a RESULT byte (R213). -/
def boolByte (b : Bool) : Byte := if b then 1 else 0

end Sys2Proof.Machine
end

