-- ==== Sys2Proof/Machine/Bus.lean ====
section
/-! DEFINITION. The host's bus transactions (R60 to R74): the address map, register reads and writes, region reads and writes, and the errors of R261. -/

namespace Sys2Proof.Machine

/-- The registers of the register block (R22). -/
inductive Reg where
  | id
  | ctrl
  | status
  | cmd
  | cfg
  | result
  | maskSel
  | score
  | scoreR1
  | scoreR2
  | scoreR3
  | scoreR4
  | scoreDark
  | scoreN
  | scoreM (m : MaskId)
  | rsSrc
  | rsLen
  | rsDst
  | infoSize
  | infoCw
  | infoBlk
  | infoRaw
deriving DecidableEq, Repr

/-- The register at an offset of the register block (R22); none for the unmapped offsets. -/
def Reg.ofOffset : Nat → Option Reg
  | 0x000 => some .id
  | 0x004 => some .ctrl
  | 0x008 => some .status
  | 0x00C => some .cmd
  | 0x010 => some .cfg
  | 0x014 => some .result
  | 0x018 => some .maskSel
  | 0x01C => some .score
  | 0x020 => some .scoreR1
  | 0x024 => some .scoreR2
  | 0x028 => some .scoreR3
  | 0x02C => some .scoreR4
  | 0x030 => some .scoreDark
  | 0x034 => some .scoreN
  | 0x040 => some (.scoreM 0)
  | 0x044 => some (.scoreM 1)
  | 0x048 => some (.scoreM 2)
  | 0x04C => some (.scoreM 3)
  | 0x050 => some (.scoreM 4)
  | 0x054 => some (.scoreM 5)
  | 0x058 => some (.scoreM 6)
  | 0x05C => some (.scoreM 7)
  | 0x060 => some .rsSrc
  | 0x064 => some .rsLen
  | 0x068 => some .rsDst
  | 0x080 => some .infoSize
  | 0x084 => some .infoCw
  | 0x088 => some .infoBlk
  | 0x08C => some .infoRaw
  | _ => none

/-- What an address reaches. -/
inductive Target where
  /-- A register. -/
  | reg (r : Reg)
  /-- The aligned word at a byte address of a region. -/
  | word (r : Region) (a : Nat)
  /-- Nothing: misaligned (R63) or unmapped (R64). -/
  | nothing
deriving DecidableEq, Repr

/-- The regions in the order of R62. -/
def Region.all : List Region := [.data, .ecc, .cw, .gen, .grid]

/-- The address map (R62), with the alignment rule (R63) first. -/
def target (addr : Addr) : Target :=
  let a := addr.toNat
  if a % 4 ≠ 0 then .nothing
  else if a < 0x100 then
    match Reg.ofOffset a with
    | some r => .reg r
    | none => .nothing
  else
    match Region.all.find? fun r => r.base ≤ a ∧ a < r.base + r.size with
    | some r => .word r a
    | none => .nothing

/-! ## Register reads -/

/-- A value read from an INFO register: 0 when CFG.VERSION is outside 1..40 (R36 to R39, R149). -/
def State.info (s : State) (f : Nat → Level → Nat) : Word :=
  match s.symbolVersion with
  | none => 0
  | some v => BitVec.ofNat 32 (f v s.level)

/-- The exact value of a register, reserved bits 0 (R21 to R39, R49, R66). -/
def State.readReg (s : State) : Reg → Word
  | .id => 0x51520001
  | .ctrl => flagBit s.ctrlIE 0
  | .status => s.statusWord
  | .cmd => s.lastCmd
  | .cfg => s.version.setWidth 32 ||| (s.ecl.setWidth 32 <<< 8)
  | .result => s.result.setWidth 32
  | .maskSel => s.mask.setWidth 32 ||| flagBit s.mvalid 3
  | .score => s.score
  | .scoreR1 => s.scoreR1
  | .scoreR2 => s.scoreR2
  | .scoreR3 => s.scoreR3
  | .scoreR4 => s.scoreR4
  | .scoreDark => s.scoreDark.setWidth 32
  | .scoreN => s.scoreN.setWidth 32
  | .scoreM m => s.scoreM[m]
  | .rsSrc => s.rsSrc.setWidth 32
  | .rsLen => s.rsLen.setWidth 32
  | .rsDst => s.rsDst.setWidth 32
  | .infoSize => s.info fun v _ => side v
  | .infoCw => s.info fun v lv => dataCodewords v lv + 2 ^ 16 * totalCodewords v
  | .infoBlk => s.info fun v lv =>
      blockCount v lv + 2 ^ 8 * eccPerBlock v lv + 2 ^ 16 * shortLength v lv + 2 ^ 24 * shortBlocks v lv
  | .infoRaw => s.info fun v _ => dataModules v + 2 ^ 16 * remainderModules v

/-- The registers whose reads are unspecified while BUSY (R71). -/
def Reg.unsettledWhileBusy : Reg → Bool
  | .result => true
  | .maskSel => true
  | .score => true
  | .scoreR1 => true
  | .scoreR2 => true
  | .scoreR3 => true
  | .scoreR4 => true
  | .scoreDark => true
  | .scoreN => true
  | .scoreM _ => true
  | _ => false

/-- A host read of a register (R66, R71): the exact value, or a free one (log 4). -/
def State.hostReadReg (s : State) (r : Reg) : Word :=
  if s.busy && r.unsettledWhileBusy then Config.freeWord s.draws else s.readReg r

/-! ## Register writes -/

/-- A host write of `w` to a register with full strobes (R25, R27, R28, R29, R35, R66, R70): the response and the state
after it. Read-only registers ignore it with OKAY. -/
def State.hostWriteReg (s : State) (w : Word) : Reg → Resp × State
  | .ctrl => (.okay, { s with ctrlIE := w.getLsbD 0 })
  | .status => (.okay, s.clearStatus w)
  | .cmd => (.okay, if s.busy then { s with ovr := true } else s.accept w)
  | .cfg =>
    if s.busy then (.error, s)
    else (.okay, { s with version := w.setWidth 6, ecl := w.extractLsb' 8 2 })
  | .rsSrc => if s.busy then (.error, s) else (.okay, { s with rsSrc := w.setWidth 12 })
  | .rsLen => if s.busy then (.error, s) else (.okay, { s with rsLen := w.setWidth 12 })
  | .rsDst => if s.busy then (.error, s) else (.okay, { s with rsDst := w.setWidth 12 })
  | .id => (.okay, s)
  | .result => (.okay, s)
  | .maskSel => (.okay, s)
  | .score => (.okay, s)
  | .scoreR1 => (.okay, s)
  | .scoreR2 => (.okay, s)
  | .scoreR3 => (.okay, s)
  | .scoreR4 => (.okay, s)
  | .scoreDark => (.okay, s)
  | .scoreN => (.okay, s)
  | .scoreM _ => (.okay, s)
  | .infoSize => (.okay, s)
  | .infoCw => (.okay, s)
  | .infoBlk => (.okay, s)
  | .infoRaw => (.okay, s)

/-! ## Region reads and writes -/

/-- Byte lane i of a word, bits [8i+7:8i] (R60, R65). -/
def lane (w : Word) (i : Nat) : Byte := w.extractLsb' (8 * i) 8

/-- The little-endian word of the bytes of the lanes 0..3 (R65). -/
def wordOf (b : Nat → Byte) : Word := b 3 ++ b 2 ++ b 1 ++ b 0

/-- Whether a byte of a region's window holds anything: all but GRID's padding (R41, R68). -/
def heldAt (r : Region) (a : Nat) : Bool := a < r.base + r.held

/-- What a byte lane stores of a byte (R67, R68): a GRID cell its bits [1:0]. -/
def storedByte (r : Region) (b : Byte) : Byte :=
  match r with
  | .grid => b &&& 3
  | _ => b

/-- The byte a host read of a region gives at `a` (R67, R68, R73): the byte, 0 in GRID's padding, and a free value, for
GRID a free code 0..3, where no byte was written (log 4). -/
def State.hostByte (s : State) (r : Region) (a : Nat) : Byte :=
  if heldAt r a then
    match s.mem.read? a with
    | some b => b
    | none => storedByte r (Config.freeByte (4 * s.draws + a % 4))
  else 0

/-- A host write of one byte lane at `a` (R67, R68): GRID's padding ignores it. -/
def Memory.hostWrite (m : Memory) (r : Region) (a : Nat) (b : Byte) : Memory :=
  if heldAt r a then m.write a [storedByte r b] else m

/-- A host write of the word `w` at `a` under the strobes (R67): the lanes whose strobe is 1. -/
def Memory.hostWriteWord (m : Memory) (r : Region) (a : Nat) (w : Word) (strb : BitVec 4) : Memory :=
  [0, 1, 2, 3].foldl (fun m i => if strb.getLsbD i then m.hostWrite r (a + i) (lane w i) else m) m

/-! ## Transactions -/

/-- What `Read(addr)` answers (R60 to R73): ERROR with data 0 for the cases of R261. -/
def State.busRead (s : State) (addr : Addr) : Resp × Word :=
  match target addr with
  | .nothing => (.error, 0)
  | .reg r => (.okay, s.hostReadReg r)
  | .word r a => if s.busy then (.error, 0) else (.okay, wordOf fun i => s.hostByte r (a + i))

/-- What `Write(addr, w, strb)` answers and does (R60 to R70): ERROR and nothing for the cases of R261. -/
def State.busWrite (s : State) (addr : Addr) (w : Word) (strb : BitVec 4) : Resp × State :=
  match target addr with
  | .nothing => (.error, s)
  | .reg r => if strb = 0b1111 then s.hostWriteReg w r else (.error, s)
  | .word r a =>
    if s.busy then (.error, s) else (.okay, { s with mem := s.mem.hostWriteWord r a w strb })

/-- One transaction, its response recorded (R61, log 3). A read has no effect on the core (R72); it advances the count of
draws, so that the next read draws afresh (R73, log 4). -/
def State.transact (s : State) : Txn → State
  | .read addr =>
    let (r, d) := s.busRead addr
    { s with responses := .read r d :: s.responses, draws := s.draws + 1 }
  | .write addr w strb =>
    let (r, t) := s.busWrite addr w strb
    { t with responses := .write r :: t.responses }

end Sys2Proof.Machine
end

