-- ==== Sys2Proof/Machine/Gf.lean ====
section
/-! DEFINITION. GF(256) arithmetic (R110 to R117) and its commands GF_ADD, GF_MUL, GF_INV, GF_EXP, GF_LOG (R118 to R122). -/

namespace Sys2Proof.Machine

/-- Field addition: exclusive or (R110). -/
def gfAdd (a b : Byte) : Byte := a ^^^ b

/-- Multiplication by the element 2, the polynomial x, reduced modulo the polynomial `p` (R110, R111). -/
def xtime (p : BitVec 9) (a : Byte) : Byte :=
  (a <<< 1) ^^^ (if a.getLsbD 7 then p.setWidth 8 else 0)

/-- Field multiplication: the polynomial product reduced modulo `p` (R110), by Horner's rule on the bits of `b`. R113's
table form equals it where 2 is primitive (log 9). -/
def gfMul (p : BitVec 9) (a b : Byte) : Byte :=
  [7, 6, 5, 4, 3, 2, 1, 0].foldl (fun acc i => xtime p acc ^^^ (if b.getLsbD i then a else 0)) 0

/-- The i-th power of 2, without reducing the exponent: the recurrence of the EXP table (R111). -/
def power (p : BitVec 9) : Nat → Byte
  | 0 => 1
  | i + 1 => xtime p (power p i)

/-- gf_exp(n) = EXP[n mod 255] (R115). -/
def gfExp (p : BitVec 9) (n : Nat) : Byte := power p (n % 255)

/-- The n entries of the EXP table from `x` on, by the recurrence of R111. -/
def powersFrom (p : BitVec 9) : (n : Nat) → (x : Byte) → List Byte
  | 0, _ => []
  | n + 1, x => x :: powersFrom p n (xtime p x)

/-- gf_log(a) = LOG[a], the unique i in 0..254 with EXP[i] = a (R112, R116); free where there is no such i or more than
one (log 8). -/
def gfLog (p : BitVec 9) (a : Byte) : Byte :=
  match (powersFrom p 255 1).zipIdx.filter fun c => c.1 = a with
  | [(_, i)] => BitVec.ofNat 8 i
  | _ => Config.freeLog p a

/-- gf_inv(a) = EXP[(255 − LOG[a]) mod 255] (R114). -/
def gfInv (p : BitVec 9) (a : Byte) : Byte := gfExp p (255 - (gfLog p a).toNat)

/-- GF_ADD (R118). -/
def execGfAdd (a b : Byte) (s : State) : Result := .next (s.setResult (gfAdd a b)).finish

/-- GF_MUL (R119). -/
def execGfMul (a b : Byte) (s : State) : Result := .next (s.setResult (gfMul s.params.gfPoly a b)).finish

/-- GF_INV (R120): GF_ZERO for A = 0 (R254). -/
def execGfInv (a : Byte) (s : State) : Result :=
  if a = 0 then .next (s.raise .gfZero) else .next (s.setResult (gfInv s.params.gfPoly a)).finish

/-- GF_EXP (R121). -/
def execGfExp (n : Nat) (s : State) : Result := .next (s.setResult (gfExp s.params.gfPoly n)).finish

/-- GF_LOG (R122): GF_ZERO for A = 0 (R254). -/
def execGfLog (a : Byte) (s : State) : Result :=
  if a = 0 then .next (s.raise .gfZero) else .next (s.setResult (gfLog s.params.gfPoly a)).finish

end Sys2Proof.Machine
end

