-- ==== Sys2Proof/Machine/Rs.lean ====
section
/-! DEFINITION. The Reed-Solomon encoder: the generator polynomial (R130), the remainder (R132), and the single-block commands GEN_POLY (R134) and RS_ENC (R135). -/

namespace Sys2Proof.Machine

/-- The coefficients of g(x)·(x + root), highest degree first: new[j] = old[j] xor old[j−1]·root (R130). -/
def timesRoot (p : BitVec 9) (g : List Byte) (root : Byte) : List Byte :=
  List.zipWith gfAdd (g ++ [0]) (0 :: g.map (gfMul p · root))

/-- g_C[0..C], highest degree first: the product of (x + α^i) for i = 0..C−1 (R130). -/
def genPoly (p : BitVec 9) : Nat → List Byte
  | 0 => [1]
  | c + 1 => timesRoot p (genPoly p c) (gfExp p c)

/-- One iteration of R132's loop on the coefficients r[i..], `g` the generator: the leading coefficient is eliminated and
dropped (it is 0 afterwards); a zero leading coefficient leaves the rest unchanged. -/
def eliminate (p : BitVec 9) (g : List Byte) : List Byte → List Byte
  | [] => []
  | lead :: rest =>
    if lead = 0 then rest
    else
      List.zipWith gfAdd rest ((g.tail.map (gfMul p · lead)) ++ List.replicate (rest.length + 1 - g.length) 0)

/-- rs_remainder(m, C): the C correction codewords of the block m, highest degree first (R132). -/
def rsRemainder (p : BitVec 9) (m : List Byte) (c : Nat) : List Byte :=
  Nat.repeat (eliminate p (genPoly p c)) m.length (m ++ List.replicate c 0)

/-- GEN_POLY (R134): RANGE for C = 0 (R255), else GEN[0..C] <- g_C[0..C]. -/
def execGenPoly (c : Nat) (s : State) : Result :=
  if c = 0 then .next (s.raise .range)
  else .next (s.store .gen 0 (genPoly s.params.gfPoly c)).finish

/-- The effect of RS_ENC in range (R135): none when a message byte was never written. -/
def rsEncEffect (c : Nat) (s : State) : Option State :=
  (s.load .data s.rsSrc.toNat s.rsLen.toNat).map fun m =>
    s.store .ecc s.rsDst.toNat (rsRemainder s.params.gfPoly m c)

/-- RS_ENC (R135): RANGE before any memory read (R255, R258). -/
def execRsEnc (c : Nat) (s : State) : Result :=
  if s.rsInRange c then complete (rsEncEffect c s) else .next (s.raise .range)

end Sys2Proof.Machine
end

