-- ==== Sys2Proof/Machine/Blocks.lean ====
section
/-! DEFINITION. The whole-symbol block encoder ECC_BLOCKS (R148, R150) and the codeword interleaver INTERLEAVE (R160, R161). -/

namespace Sys2Proof.Machine

/-- The lists a partial function gives at every element, none when one is missing. -/
def gather {α β : Type} (f : α → Option β) : List α → Option (List β)
  | [] => some []
  | a :: as =>
    match f a, gather f as with
    | some b, some bs => some (b :: bs)
    | _, _ => none

/-- The data blocks d_b, b = 0..NB−1, read from DATA (R148). -/
def State.dataBlocks (s : State) (v : Nat) (lv : Level) : Option (List (List Byte)) :=
  gather (fun b => s.load .data (blockStart v lv b) (blockLength v lv b)) (List.range (blockCount v lv))

/-- The correction blocks e_b = ECC[b·C .. b·C+C−1], b = 0..NB−1 (R160). -/
def State.eccBlocks (s : State) (v : Nat) (lv : Level) : Option (List (List Byte)) :=
  gather (fun b => s.load .ecc (b * eccPerBlock v lv) (eccPerBlock v lv)) (List.range (blockCount v lv))

/-- The effect of ECC_BLOCKS at version v (R150): the correction codewords of block b at ECC[b·C..]. -/
def eccBlocksEffect (v : Nat) (s : State) : Option State :=
  (s.dataBlocks v s.level).map fun blocks =>
    s.store .ecc 0 (blocks.flatMap fun blk => rsRemainder s.params.gfPoly blk (eccPerBlock v s.level))

/-- ECC_BLOCKS (R150). -/
def execEccBlocks (s : State) : Result := withVersion s fun v => complete (eccBlocksEffect v s)

/-- Byte i of every block that has one, for i = 0..n−1 in order (R160). -/
def interleaved (n : Nat) (blocks : List (List Byte)) : List Byte :=
  (List.range n).flatMap fun i => blocks.filterMap fun blk => blk[i]?

/-- The interleaved sequence of R160: the data blocks, whose longest has at most KS + 1 bytes, then the correction
blocks. -/
def interleaveBlocks (v : Nat) (lv : Level) (dataBlks eccBlks : List (List Byte)) : List Byte :=
  interleaved (shortLength v lv + 1) dataBlks ++ interleaved (eccPerBlock v lv) eccBlks

/-- The effect of INTERLEAVE at version v (R161). -/
def interleaveEffect (v : Nat) (s : State) : Option State :=
  match s.dataBlocks v s.level, s.eccBlocks v s.level with
  | some d, some e => some (s.store .cw 0 (interleaveBlocks v s.level d e))
  | _, _ => none

/-- INTERLEAVE (R161). -/
def execInterleave (s : State) : Result := withVersion s fun v => complete (interleaveEffect v s)

end Sys2Proof.Machine
end

