-- ==== Sys2Proof/Machine/Matrix.lean ====
section
/-! DEFINITION. The mask predicates (R211) with MASK_EVAL (R213), and the matrix builder (R170 to R187) with BUILD_FUNC (R188) and BUILD (R189). -/

namespace Sys2Proof.Machine

/-! ## Masks -/

/-- mask(m, x, y) with x the column and y the row: whether mask m inverts the module (R211). -/
def maskBit (m : MaskId) (x y : Nat) : Bool :=
  match m with
  | 0 => (x + y) % 2 = 0
  | 1 => y % 2 = 0
  | 2 => x % 3 = 0
  | 3 => (x + y) % 3 = 0
  | 4 => (x / 3 + y / 2) % 2 = 0
  | 5 => x * y % 2 + x * y % 3 = 0
  | 6 => (x * y % 2 + x * y % 3) % 2 = 0
  | 7 => (x * y % 3 + (x + y) % 2) % 2 = 0

/-- MASK_EVAL (R213): RESULT <- BIT xor mask(MASK, X, Y). -/
def execMaskEval (x y : Nat) (m : MaskId) (bit : Bool) (s : State) : Result :=
  .next (s.setResult (boolByte (bit ^^ maskBit m x y))).finish

/-! ## Modules and grids -/

/-- The value of a module (R16, R40). -/
inductive Module where
  | light
  | dark
  | unset
deriving DecidableEq, Repr

/-- The code of a module in a GRID byte (R40). -/
def Module.code : Module → Byte
  | .light => 0
  | .dark => 1
  | .unset => 2

/-- Dark for 1, Light for 0 (R16). -/
def Module.ofBit (b : Bool) : Module := if b then .dark else .light

/-- `Cell(y, x)`: a grid under construction, by row and column (R14, R15). Working storage of one step, not state (R47). -/
abbrev Grid := Nat → Nat → Module

/-- `Cell(y, x) <- m`. -/
def Grid.set (g : Grid) (y x : Nat) (m : Module) : Grid := fun y' x' => if y' = y ∧ x' = x then m else g y' x'

/-- Write the cells of a list, in order. -/
def Grid.setAll (g : Grid) (cells : List ((Nat × Nat) × Module)) : Grid :=
  cells.foldl (fun g c => g.set c.1.1 c.1.2 c.2) g

/-- The distance of two coordinates. -/
def gap (a b : Nat) : Nat := (a - b) + (b - a)

/-- Write the square of cells at distance ≤ r from the centre `c`, each by its distance from it. -/
def Grid.ring (r : Nat) (val : Nat → Module) (g : Grid) (c : Nat × Nat) : Grid := fun y x =>
  let d := max (gap y c.1) (gap x c.2)
  if d ≤ r then val d else g y x

/-! ## Function patterns, steps 0 to 5 -/

/-- Step 0 (R172): every interior cell is Unset. -/
def clearStep : Grid := fun _ _ => .unset

/-- Step 1 (R173): the three finder patterns with their separators. -/
def finderStep (s : Nat) (g : Grid) : Grid :=
  [(3, 3), (3, s - 4), (s - 4, 3)].foldl
    (Grid.ring 4 fun d => if d = 0 ∨ d = 1 ∨ d = 3 then .dark else .light) g

/-- The cells of both copies of the version information (R174). -/
def versionCells (v : Nat) : List ((Nat × Nat) × Module) :=
  (List.range 18).flatMap fun i =>
    let a := side v - 11 + i % 3
    let b := i / 3
    let m := Module.ofBit ((verInfo v).testBit i)
    [((b, a), m), ((a, b), m)]

/-- Step 2 (R174): the version information, for v ≥ 7 only. -/
def versionStep (v : Nat) (g : Grid) : Grid := if 7 ≤ v then g.setAll (versionCells v) else g

/-- The centres of the alignment patterns (R176): every pair of coordinates but the three corner pairs. -/
def alignmentCentres (v : Nat) : List (Nat × Nat) :=
  let al := alignmentCoords v
  let n := al.length
  ((List.range n).flatMap fun i => (List.range n).map fun j => (i, j)).filterMap fun (i, j) =>
    if (i = 0 ∧ j = 0) ∨ (i = 0 ∧ j = n - 1) ∨ (i = n - 1 ∧ j = 0) then none
    else some (al.getD i 0, al.getD j 0)

/-- Step 3 (R176): the alignment patterns. -/
def alignmentStep (v : Nat) (g : Grid) : Grid :=
  (alignmentCentres v).foldl (Grid.ring 2 fun d => if d = 1 then .light else .dark) g

/-- Where bit i of the format information stands in copy 1 (R178). -/
def formatCell1 (i : Nat) : Nat × Nat :=
  if i ≤ 5 then (i, 8) else if i = 6 then (7, 8) else if i = 7 then (8, 8) else if i = 8 then (8, 7) else (8, 14 - i)

/-- Where bit i of the format information stands in copy 2 (R178). -/
def formatCell2 (s i : Nat) : Nat × Nat := if i ≤ 7 then (8, s - 1 - i) else (s - 15 + i, 8)

/-- The cells of both copies of the format information (R178). -/
def formatCells (s : Nat) (lv : Level) (m : MaskId) : List ((Nat × Nat) × Module) :=
  (List.range 15).flatMap fun i =>
    let b := Module.ofBit ((fmtInfo lv m).testBit i)
    [(formatCell1 i, b), (formatCell2 s i, b)]

/-- Step 4 (R178, R180): the format information and the always-dark module. -/
def formatStep (s : Nat) (lv : Level) (m : MaskId) (g : Grid) : Grid :=
  (g.setAll (formatCells s lv m)).set (s - 8) 8 .dark

/-- Step 5 (R181): the timing patterns, on Unset cells of row 6 and column 6 only. -/
def timingStep (g : Grid) : Grid := fun y x =>
  if g y x = .unset then
    if y = 6 then .ofBit (x % 2 = 0) else if x = 6 then .ofBit (y % 2 = 0) else .unset
  else g y x

/-- Steps 0 to 5 in the order of R171: the function patterns of version v, with the format information of the level and
the mask; the data area (R190) is Unset. -/
def functionGrid (v : Nat) (lv : Level) (m : MaskId) : Grid :=
  timingStep (formatStep (side v) lv m (alignmentStep v (versionStep v (finderStep (side v) clearStep))))

/-! ## Data placement, step 6 -/

/-- The two cells of each row of the column pair (right, right − 1), rows in the given order (R183). -/
def pairCells (right : Nat) (rows : List Nat) : List (Nat × Nat) :=
  rows.flatMap fun y => [(y, right), (y, right - 1)]

/-- The zigzag from the column `right` on (R183), `fuel` column pairs at most. -/
def zigzagFrom (s : Nat) : (fuel right : Nat) → List (Nat × Nat)
  | 0, _ => []
  | fuel + 1, right =>
    if right = 0 then []
    else
      let right := if right = 6 then 5 else right
      let upward := (right + 1) / 2 % 2 = 0
      let rows := if upward then (List.range s).reverse else List.range s
      pairCells right rows ++ zigzagFrom s fuel (right - 2)

/-- Z(s), the zigzag order of R183. -/
def zigzag (s : Nat) : List (Nat × Nat) := zigzagFrom s s (s - 1)

/-- The data-area cells in zigzag order: those still Unset after step 5 (R184, R190). -/
def dataCells (v : Nat) (lv : Level) (m : MaskId) : List (Nat × Nat) :=
  (zigzag (side v)).filter fun c => functionGrid v lv m c.1 c.2 = .unset

/-- The modules of the data-area cells, in order (R184): one bit of the stream each, masked; once the stream has run out,
the remainder modules. -/
def placeBits (par : Params) (m : MaskId) : List (Nat × Nat) → List Bool → List ((Nat × Nat) × Module)
  | [], _ => []
  | (y, x) :: cells, bit :: bits =>
    ((y, x), .ofBit (bit ^^ maskBit m x y)) :: placeBits par m cells bits
  | (y, x) :: cells, [] =>
    ((y, x), .ofBit (par.remainderMasked && maskBit m x y)) :: placeBits par m cells []

/-- The rows of the interior of a grid. -/
def gridRows (s : Nat) (g : Grid) : List (List Module) :=
  (List.range s).map fun y => (List.range s).map fun x => g y x

/-- The rows of the interior with the placed modules in the cells still Unset. -/
def placedRows (s : Nat) (g : Grid) (placed : List ((Nat × Nat) × Module)) : List (List Module) :=
  (List.range s).map fun y =>
    let here := placed.filter fun c => c.1.1 = y
    (List.range s).map fun x =>
      if g y x = .unset then
        match here.find? fun c => c.1.2 = x with
        | some c => c.2
        | none => .unset
      else g y x

/-- The interior of the complete symbol (steps 0 to 6, R172 to R184) carrying the codewords `cw` under mask m. -/
def symbolRows (par : Params) (v : Nat) (lv : Level) (m : MaskId) (cw : List Byte) : List (List Module) :=
  placedRows (side v) (functionGrid v lv m) (placeBits par m (dataCells v lv m) (cw.flatMap bitsOf))

/-! ## Storage -/

/-- The transpose of a matrix of n columns. -/
def transpose {α : Type} (n : Nat) (rows : List (List α)) : List (List α) :=
  rows.foldr (List.zipWith List.cons) (List.replicate n [])

/-- The interior as GRID stores it (R41, R186): transposed when GRID_TRANSPOSE = true. -/
def storedRows (par : Params) (s : Nat) (rows : List (List Module)) : List (List Module) :=
  if par.gridTranspose then transpose s rows else rows

/-- A square of side s with a border of Light around it (R185): `lead` rows and columns before it and as many after it as
fill a square of side n. -/
def frame (lead n s : Nat) (rows : List (List Module)) : List (List Module) :=
  List.replicate lead (List.replicate n .light) ++
    rows.map (fun r => List.replicate lead .light ++ r ++ List.replicate (n - lead - s) .light) ++
    List.replicate (n - lead - s) (List.replicate n .light)

/-- All 185 × 185 cells of the GRID frame as bytes (R41, R172, R186): the interior at (4, 4), Light elsewhere. -/
def frameBytes (par : Params) (s : Nat) (rows : List (List Module)) : List Byte :=
  ((frame 4 frameSide s (storedRows par s rows)).flatten).map Module.code

/-- Store a symbol of version v into GRID (R186). -/
def State.storeGrid (s : State) (v : Nat) (rows : List (List Module)) : State :=
  s.store .grid 0 (frameBytes s.params (side v) rows)

/-! ## Commands -/

/-- BUILD_FUNC (R188). -/
def execBuildFunc (m : MaskId) (s : State) : Result :=
  withVersion s fun v => .next (s.storeGrid v (gridRows (side v) (functionGrid v s.level m))).finish

/-- The effect of BUILD at version v (R189): none when a codeword was never written. -/
def buildEffect (m : MaskId) (v : Nat) (s : State) : Option State :=
  (s.load .cw 0 (totalCodewords v)).map fun cw =>
    (s.storeGrid v (symbolRows s.params v s.level m cw)).setMask m

/-- BUILD (R189). -/
def execBuild (m : MaskId) (s : State) : Result := withVersion s fun v => complete (buildEffect m v s)

end Sys2Proof.Machine
end

