-- ==== Sys2Proof/Machine/Score.lean ====
section
/-! DEFINITION. The penalty score (R214 to R219) with SCORE (R220), and the automatic mask selection (R221) with AUTO_MASK (R222). -/

namespace Sys2Proof.Machine

/-! ## The four rules, on a square matrix of truth values (true for Dark) -/

/-- The lengths of the maximal runs of a line, after `len` cells equal to `cur` (R215). -/
def runsFrom (cur : Bool) (len : Nat) : List Bool → List Nat
  | [] => [len]
  | b :: bs => if b = cur then runsFrom cur (len + 1) bs else len :: runsFrom b 1 bs

/-- The lengths of the maximal runs of equal consecutive values of a line (R215). -/
def runs : List Bool → List Nat
  | [] => []
  | b :: bs => runsFrom b 1 bs

/-- What a run of length L adds: L − 2 when L ≥ 5 (R215). -/
def runPenalty (len : Nat) : Nat := if 5 ≤ len then len - 2 else 0

/-- Rule 1 on the given lines (R215). -/
def penalty1 (lines : List (List Bool)) : Nat := (lines.map fun l => ((runs l).map runPenalty).sum).sum

/-- The 2 × 2 blocks of equal modules between two adjacent rows (R216). -/
def blocksBetween : List Bool → List Bool → Nat
  | a :: b :: r, c :: d :: t => (if a = b ∧ a = c ∧ a = d then 1 else 0) + blocksBetween (b :: r) (d :: t)
  | _, _ => 0

/-- Rule 2 (R216): 3 for every 2 × 2 block of equal modules, overlapping ones too. -/
def penalty2 (rows : List (List Bool)) : Nat := 3 * (List.zipWith blocksBetween rows rows.tail).sum

/-- The number of positions of a line at which the pattern starts (R217). -/
def occurrences (pat : List Bool) : List Bool → Nat
  | [] => if pat = [] then 1 else 0
  | b :: bs => (if pat.isPrefixOf (b :: bs) then 1 else 0) + occurrences pat bs

/-- Rule 3 on the given lines (R217): 40 for every occurrence of every pattern. -/
def penalty3 (pats lines : List (List Bool)) : Nat :=
  40 * (lines.map fun l => (pats.map fun p => occurrences p l).sum).sum

/-- Rule 4 (R218) for k Dark entries of n: the division rounds toward minus infinity. -/
def penalty4 (abs : Bool) (k n : Nat) : Int :=
  let d : Int := 100 * k - 50 * n
  2 * Int.fdiv (if abs then (d.natAbs : Int) else d) n

/-- A score with its breakdown (R219): the four terms, the Dark entries and the size of the domain. -/
structure Penalty where
  p1 : Nat
  p2 : Nat
  p3 : Nat
  p4 : Int
  dark : Nat
  size : Nat
deriving DecidableEq, Repr

/-- The total P1 + P2 + P3 + P4 (R219). -/
def Penalty.total (p : Penalty) : Int := p.p1 + p.p2 + p.p3 + p.p4

/-- The score of a square matrix of side n, true for Dark (R214 to R219). -/
def scoreOf (par : Params) (n : Nat) (rows : List (List Bool)) : Penalty :=
  let lines := rows ++ transpose n rows
  let dark := rows.flatten.count true
  { p1 := penalty1 lines
    p2 := penalty2 rows
    p3 := penalty3 par.r3Patterns lines
    p4 := penalty4 par.r4Abs dark (n * n)
    dark := dark
    size := n * n }

/-! ## Reading the domain from GRID -/

/-- The side of the scored domain (R214): the interior, or the delivered grid with its quiet zone. -/
def domainSide (par : Params) (v : Nat) : Nat := if par.scoreIncludesQz then side v + 8 else side v

/-- Where the domain starts in the frame, in rows and in columns (R41, R214). -/
def domainStart (par : Params) : Nat := if par.scoreIncludesQz then 0 else 4

/-- The rows of a square of side n of GRID whose corner is the frame cell (o, o): none when a cell was never written. -/
def State.frameSquare (s : State) (o n : Nat) : Option (List (List Byte)) :=
  gather (fun y => s.load .grid ((o + y) * frameSide + o) n) (List.range n)

/-- The cell codes of the scored domain M of version v, through the mapping of R186 (R214, R220). -/
def State.domain (s : State) (v : Nat) : Option (List (List Byte)) :=
  (s.frameSquare (domainStart s.params) (domainSide s.params v)).map fun rows =>
    if s.params.gridTranspose && !s.params.scoreIncludesQz then transpose (domainSide s.params v) rows else rows

/-- Whether a cell code is Light or Dark (R220). -/
def scorable (b : Byte) : Bool := b = 0 ∨ b = 1

/-- The registers a score is reported in (R32, R33, R220). -/
def State.setScore (s : State) (p : Penalty) : State :=
  { s with
    score := BitVec.ofInt 32 p.total
    scoreR1 := BitVec.ofNat 32 p.p1
    scoreR2 := BitVec.ofNat 32 p.p2
    scoreR3 := BitVec.ofNat 32 p.p3
    scoreR4 := BitVec.ofInt 32 p.p4
    scoreDark := BitVec.ofNat 16 p.dark
    scoreN := BitVec.ofNat 16 p.size }

/-- SCORE on the cell codes of its domain (R220): GRID_INCOMPLETE (R257), or the score of the codes (1 is Dark). -/
def scoreCells (v : Nat) (s : State) (rows : List (List Byte)) : State :=
  if rows.all fun r => r.all scorable then
    (s.setScore (scoreOf s.params (domainSide s.params v) (rows.map fun r => r.map fun b => decide (b = 1)))).finish
  else s.raise .gridIncomplete

/-- SCORE (R220): the fault on a cell never written comes before GRID_INCOMPLETE (R258). -/
def execScore (s : State) : Result :=
  withVersion s fun v =>
    match s.domain v with
    | none => .fault .readUnwritten
    | some rows => .next (scoreCells v s rows)

/-! ## Automatic mask selection -/

/-- The scored domain of a symbol that is still private storage (R214, R222): its interior, or the delivered grid. -/
def privateDomain (par : Params) (v : Nat) (rows : List (List Module)) : List (List Bool) :=
  let cells := if par.scoreIncludesQz then frame 4 (side v + 8) (side v) (storedRows par (side v) rows) else rows
  cells.map fun r => r.map fun m => decide (m = .dark)

/-- The score of the candidate with mask m (R221, R222). -/
def candidateScore (par : Params) (v : Nat) (lv : Level) (cw : List Byte) (m : MaskId) : Penalty :=
  scoreOf par (domainSide par v) (privateDomain par v (symbolRows par v lv m cw))

/-- The selection of R221: the first minimum of the totals S_0..S_7. -/
def selectMask (total : MaskId → Int) : MaskId :=
  [1, 2, 3, 4, 5, 6, 7].foldl (fun best m => if total m < total best then m else best) 0

/-- The registers, GRID and MASKSEL that AUTO_MASK writes from the eight scores (R222). -/
def autoMaskStore (v : Nat) (cw : List Byte) (scores : Vector Penalty 8) (s : State) : State :=
  let best := selectMask fun m => scores[m].total
  { ((s.storeGrid v (symbolRows s.params v s.level best cw)).setScore scores[best]).setMask best with
    scoreM := scores.map fun p => BitVec.ofInt 32 p.total }

/-- The effect of AUTO_MASK at version v (R222): none when a codeword was never written. -/
def autoMaskEffect (v : Nat) (s : State) : Option State :=
  (s.load .cw 0 (totalCodewords v)).map fun cw =>
    autoMaskStore v cw (Vector.ofFn fun m => candidateScore s.params v s.level cw m) s

/-- AUTO_MASK (R222). -/
def execAutoMask (s : State) : Result := withVersion s fun v => complete (autoMaskEffect v s)

end Sys2Proof.Machine
end

