-- ==== Sys2Proof/Machine/Control.lean ====
section
/-! DEFINITION. The control commands NOP and SRESET (R240, R241) and the composite commands GENERATE and GENERATE.AUTO (R242, R243). -/

namespace Sys2Proof.Machine

/-- NOP (R240): nothing but the completion. -/
def execNop (s : State) : Result := .next s.finish

/-- SRESET (R241, R283). -/
def execSreset (s : State) : Result := .next s.softReset.finish

/-- The effects of ECC_BLOCKS and INTERLEAVE, in that order: each reads what the one before wrote (R242). -/
def encodeEffect (v : Nat) (s : State) : Option State := (eccBlocksEffect v s).bind (interleaveEffect v)

/-- GENERATE (R242): ECC_BLOCKS, INTERLEAVE and BUILD inside one completion step. -/
def execGenerate (m : MaskId) (s : State) : Result :=
  withVersion s fun v => complete ((encodeEffect v s).bind (buildEffect m v))

/-- GENERATE.AUTO (R243): ECC_BLOCKS, INTERLEAVE and AUTO_MASK inside one completion step. -/
def execGenerateAuto (s : State) : Result :=
  withVersion s fun v => complete ((encodeEffect v s).bind (autoMaskEffect v))

end Sys2Proof.Machine
end

