-- ==== Sys2Proof/Machine/Dispatch.lean ====
section
/-! DEFINITION. What a command does: one arm per constructor of Instr, each one call of its meaning. -/

namespace Sys2Proof.Machine

def exec (i : Instr) (s : State) : Host.Outcome State Fault Refusal :=
  match i with
  | .nop => Sys2Proof.Machine.execNop s
  | .sreset => Sys2Proof.Machine.execSreset s
  | .gfAdd a b => Sys2Proof.Machine.execGfAdd a b s
  | .gfMul a b => Sys2Proof.Machine.execGfMul a b s
  | .gfInv a => Sys2Proof.Machine.execGfInv a s
  | .gfExp n => Sys2Proof.Machine.execGfExp n s
  | .gfLog a => Sys2Proof.Machine.execGfLog a s
  | .genPoly c => Sys2Proof.Machine.execGenPoly c s
  | .rsEnc c => Sys2Proof.Machine.execRsEnc c s
  | .eccBlocks => Sys2Proof.Machine.execEccBlocks s
  | .interleave => Sys2Proof.Machine.execInterleave s
  | .buildFunc m => Sys2Proof.Machine.execBuildFunc m s
  | .build m => Sys2Proof.Machine.execBuild m s
  | .maskEval x y m bit => Sys2Proof.Machine.execMaskEval x y m bit s
  | .score => Sys2Proof.Machine.execScore s
  | .autoMask => Sys2Proof.Machine.execAutoMask s
  | .generate m => Sys2Proof.Machine.execGenerate m s
  | .generateAuto => Sys2Proof.Machine.execGenerateAuto s

end Sys2Proof.Machine
end

