-- ==== Sys2Proof/Machine/Engine.lean ====
section
/-! DEFINITION. The engine's completion step (R46, R256), the events at the core's ports (R61, R280), and placing a command word where the engine takes it. -/

namespace Sys2Proof.Machine

/-- What the model does with the answer of a command (R48, R256, R264): a ModelFault sets `faulted` and changes nothing
else; the machine is then stuck (log 6). -/
def settle (s : State) : Result → Result
  | .fault _ => .next { s with faulted := true }
  | r => r

/-- The completion of the accepted word `w` (R256, R258): ILLEGAL_CMD when it decodes to no command (R252), else the
command. -/
def completeWord (w : Word) (s : State) : Result :=
  match decodeWord w with
  | none => .next (s.raise .illegalCmd)
  | some i => settle s (exec i s)

/-- The engine's turn: it completes the pending command, and without one nothing happens (R46, R256). -/
def engineTurn (s : State) : Result :=
  match s.pending with
  | none => .next s
  | some w => completeWord w s

/-- One event at the ports (log 1, log 10). No transaction is accepted while `rst` is asserted (R280). -/
def handleEvent (s : State) : Event → Result
  | .host t => .next (if s.rst then s else s.transact t)
  | .engine => engineTurn s
  | .rst level => .next (s.hardReset level)

/-- One step of a core that is not faulted: the next event, and the engine's turn when no event is left (R300, log 1). -/
def stepLive (s : State) : Result :=
  match s.events with
  | [] => engineTurn s
  | e :: rest => handleEvent { s with events := rest } e

/-- The state in which the engine's next turn runs the command word `w`: `w` accepted (R256), and the engine's turn
next. -/
def State.issue (s : State) (w : Word) : State :=
  { s.accept w with events := .engine :: s.events }

end Sys2Proof.Machine
end

