-- ==== Sys2Proof/Machine/Step.lean ====
section
/-! DEFINITION. One step of the core, and the state whose next step runs a given command word. -/

namespace Sys2Proof.Machine

/-- One step (R20, R61, R256): a faulted model takes no further step, host or engine (R48, R264). -/
def step (s : State) : Host.Outcome State Fault Refusal :=
  if s.faulted then .fault .readUnwritten else stepLive s

/-- `s` with the command word of the table's numbering (its low `nbits` bits `w`, the rest 0) accepted and about to be
completed: the core fetches nothing (R24, R78), a command arrives as a CMD write (log 2). -/
def State.withFetchWord (s : State) (nbits w : Nat) : State := s.issue (BitVec.ofNat 32 (w % 2 ^ nbits))

end Sys2Proof.Machine
end

