-- ==== Sys2Proof/Machine/HostProgram.lean ====
section
/-! DEFINITION. The host's notation: the assembler of command lines (R102, R104) and the pseudo-instructions of host programs as events at the core's ports (R103). -/

namespace Sys2Proof.Machine

/-! ## The assembler (R102) -/

/-- An operand A or B, a field element 0..255. -/
def byteOperand (n : Nat) : Option Byte := if n < 256 then some (BitVec.ofNat 8 n) else none

/-- An operand A (an exponent), C, X or Y, 0..255. -/
def countOperand (n : Nat) : Option Nat := if n < 256 then some n else none

/-- An operand M, 0..7. -/
def maskOperand (n : Nat) : Option MaskId := if n < 8 then some (Fin.ofNat 8 n) else none

/-- An operand BIT, 0..1. -/
def bitOperand (n : Nat) : Option Bool := if n < 2 then some (decide (n = 1)) else none

/-- A command without operands. -/
def noOperands (i : Instr) : List Nat → Option Instr
  | [] => some i
  | _ => none

/-- A command with one operand. -/
def oneOperand {α : Type} (f : Nat → Option α) (mk : α → Instr) : List Nat → Option Instr
  | [n] => (f n).map mk
  | _ => none

/-- A command with two field elements. -/
def twoBytes (mk : Byte → Byte → Instr) : List Nat → Option Instr
  | [a, b] => (byteOperand a).bind fun a => (byteOperand b).map (mk a)
  | _ => none

/-- `mask.eval X, Y, M, BIT`. -/
def maskEvalOperands : List Nat → Option Instr
  | [x, y, m, b] =>
    (countOperand x).bind fun x => (countOperand y).bind fun y =>
      (maskOperand m).bind fun m => (bitOperand b).map (.maskEval x y m)
  | _ => none

/-- The mnemonics of R102 with their operands, which are refused outside their fields' ranges. -/
def asmTable : List (String × (List Nat → Option Instr)) :=
  [("nop", noOperands .nop), ("sreset", noOperands .sreset),
   ("gf.add", twoBytes .gfAdd), ("gf.mul", twoBytes .gfMul),
   ("gf.inv", oneOperand byteOperand .gfInv), ("gf.exp", oneOperand countOperand .gfExp),
   ("gf.log", oneOperand byteOperand .gfLog),
   ("gen.poly", oneOperand countOperand .genPoly), ("rs.enc", oneOperand countOperand .rsEnc),
   ("ecc.blocks", noOperands .eccBlocks), ("interleave", noOperands .interleave),
   ("score", noOperands .score), ("auto.mask", noOperands .autoMask),
   ("build.func", oneOperand maskOperand .buildFunc), ("build", oneOperand maskOperand .build),
   ("mask.eval", maskEvalOperands),
   ("generate", oneOperand maskOperand .generate), ("generate.auto", noOperands .generateAuto)]

/-- The value of a digit below the base. -/
def digit (base : Nat) (c : Char) : Option Nat :=
  let n :=
    if '0' ≤ c ∧ c ≤ '9' then c.toNat - '0'.toNat
    else if 'a' ≤ c ∧ c ≤ 'f' then c.toNat - 'a'.toNat + 10
    else if 'A' ≤ c ∧ c ≤ 'F' then c.toNat - 'A'.toNat + 10
    else base
  if n < base then some n else none

/-- The number a list of digits writes, most significant first. -/
def digits (base : Nat) (cs : List Char) : Option Nat :=
  if cs = [] then none
  else cs.foldl (fun acc c => acc.bind fun n => (digit base c).map fun d => n * base + d) (some 0)

/-- A number in decimal or `0x` hexadecimal (R102). -/
def number : List Char → Option Nat
  | '0' :: 'x' :: cs => digits 16 cs
  | cs => digits 10 cs

/-- The list of characters without the spaces at its two ends. -/
def trim (cs : List Char) : List Char := ((cs.dropWhile (· = ' ')).reverse.dropWhile (· = ' ')).reverse

/-- The parts of a list between commas. -/
def splitCommas : List Char → List (List Char)
  | [] => [[]]
  | c :: cs =>
    match splitCommas cs with
    | [] => [[]]
    | p :: ps => if c = ',' then [] :: p :: ps else (c :: p) :: ps

/-- The operands of a line: numbers separated by commas. -/
def operands (cs : List Char) : Option (List Nat) :=
  if trim cs = [] then some []
  else (splitCommas cs).foldr (fun p acc => acc.bind fun ns => (number (trim p)).map (· :: ns)) (some [])

/-- The command a line writes (R102), its comment left out (R104); none where the assembler refuses it. -/
def assembleLine (line : String) : Option Instr :=
  let cs := trim (line.toList.takeWhile (· ≠ ';'))
  let mn := cs.takeWhile (· ≠ ' ')
  (asmTable.find? fun row => row.1.toList = mn).bind fun row =>
    (operands (cs.dropWhile (· ≠ ' '))).bind row.2

/-! ## Pseudo-instructions (R103) -/

/-- A line of a host program, but for its own control flow, which is the host's (R104). -/
inductive HostLine where
  /-- `WR off, v`. -/
  | wr (off : Addr) (v : Word)
  /-- `RD off`. -/
  | rd (off : Addr)
  /-- `WRB base, b0 b1 ...`. -/
  | wrb (base : Nat) (bytes : List Byte)
  /-- `CMD <command>`. -/
  | cmd (i : Instr)
  /-- `WAIT`, in a run in which the engine completes after `polls` reads of STATUS. -/
  | wait (polls : Nat)
  /-- `CMDW <command>`. -/
  | cmdw (i : Instr) (polls : Nat)
  /-- `CLR`. -/
  | clr
deriving DecidableEq, Repr

/-- `Write(off, v, 0b1111)`. -/
def wrEvent (off : Addr) (v : Word) : Event := .host (.write off v 0b1111)

/-- `Read(off)`. -/
def rdEvent (off : Addr) : Event := .host (.read off)

/-- The write of `WRB` to the aligned word at `a`: the bytes of the list in their lanes, strobes for those only. -/
def wrbEvent (base : Nat) (bytes : List Byte) (a : Nat) : Event :=
  let at_ (i : Nat) : Option Byte := if base ≤ a + i then bytes[a + i - base]? else none
  .host (.write (BitVec.ofNat 17 a)
    ((at_ 3).getD 0 ++ (at_ 2).getD 0 ++ (at_ 1).getD 0 ++ (at_ 0).getD 0)
    (BitVec.ofNat 4
      ((at_ 0).isSome.toNat + 2 * (at_ 1).isSome.toNat + 4 * (at_ 2).isSome.toNat + 8 * (at_ 3).isSome.toNat)))

/-- The events of `WAIT`: `polls` reads of STATUS that see BUSY = 1, the engine's completion, and the read that sees
BUSY = 0. -/
def waitEvents (polls : Nat) : List Event := List.replicate polls (rdEvent 0x008) ++ [.engine, rdEvent 0x008]

/-- The expansion of a pseudo-instruction (R103). -/
def HostLine.expand : HostLine → List Event
  | .wr off v => [wrEvent off v]
  | .rd off => [rdEvent off]
  | .wrb base bytes =>
    (List.range ((base % 4 + bytes.length + 3) / 4)).map fun k => wrbEvent base bytes (base - base % 4 + 4 * k)
  | .cmd i => [wrEvent 0x00C (encode i)]
  | .wait polls => waitEvents polls
  | .cmdw i polls => wrEvent 0x00C (encode i) :: waitEvents polls
  | .clr => [wrEvent 0x008 0x0000000E]

/-- The core with a host program before it: its transactions and the engine's turns between them (log 2). -/
def State.program (s : State) (lines : List HostLine) : State := { s with events := lines.flatMap HostLine.expand }

end Sys2Proof.Machine
end

