-- ==== Sys2Proof/Safety.lean ====
section
/-! DEFINITION. What counts as a safe run (R264), when the bytes a command reads are there (R74), and the invariant of the core's state. -/

namespace Sys2Proof.Machine

/-- Every byte of the range i..i+n-1 of a region has been written (R48): its engine read is exact (R74). -/
def State.Written (s : State) (r : Region) (i n : Nat) : Prop :=
  ∀ k, k < n → (s.mem.read? (r.base + i + k)).isSome = true

/-- A run of n steps that does not fault: the runs every property is proved for (R264). -/
def SafeRun (n : Nat) (s : State) : Prop := ∃ t : State, Sys2Proof.core.run n s = .next t ∧ t.faulted = false

/-- The invariant of the core: what the rules promise of every state a run from reset reaches. -/
structure State.Inv (s : State) : Prop where
  /-- The memory is in its canonical form. -/
  memCanonical : s.mem.wf = true
  /-- Only bytes that exist are written: those of the regions, without GRID's padding (R62, R68). -/
  memMapped : ∀ c ∈ s.mem, ∃ r : Region, r.base ≤ c.1 ∧ c.1 < r.base + r.held
  /-- A GRID byte holds a 2-bit cell code (R40, R68). -/
  gridCodes : ∀ c ∈ s.mem, Region.grid.base ≤ c.1 → c.2.toNat < 4
  /-- ERRCODE is 0 exactly when ERR = 0 (R26, R251). -/
  errCodeOfErr : s.err = true ↔ s.errCode ≠ 0
  /-- The reserved error codes are never produced (R251). -/
  errCodeKnown : s.errCode.toNat ≤ 5
  /-- While BUSY, DONE, ERR and ERRCODE are 0 (R27, R256). -/
  busyFlags : s.busy = true → s.done = false ∧ s.err = false
  /-- The pending command is the last accepted word (R28). -/
  pendingIsLast : ∀ w, s.pending = some w → s.lastCmd = w
  /-- SCORE is the sum of its four terms (R33). -/
  scoreSum : s.score = s.scoreR1 + s.scoreR2 + s.scoreR3 + s.scoreR4
  /-- MASK is 0 until a symbol has been built (R31). -/
  maskOfInvalid : s.mvalid = false → s.mask = 0
  /-- Nothing is pending while the reset input is asserted (R280, R281). -/
  resetIdle : s.rst = true → s.pending = none

end Sys2Proof.Machine
end

