-- ==== Sys2Proof/Certificates/Slice0/Obligations.lean ====
section
/-! DEFINITION. The statements for the provers: one `def Obligations.<Name> : Prop` each, with the vocabulary they share. -/

namespace Sys2Proof.Machine

/-! ## Vocabulary of the statements -/

/-- CFG.VERSION is the legal version v, 1..40 (R29). -/
def State.AtVersion (s : State) (v : Nat) : Prop := s.version.toNat = v ∧ 1 ≤ v ∧ v ≤ 40

/-- The n bytes of region r from offset 0 have been written and are f 0, f 1, … -/
def State.Holds (s : State) (r : Region) (n : Nat) (f : Nat → Byte) : Prop :=
  ∀ i, i < n → s.mem.read? (r.base + i) = some (f i)

/-- `t` is `s` after a command that succeeded and wrote memory only: every register and flag but DONE, ERR and ERRCODE
untouched and BUSY cleared; what memory holds is for the statement to say. -/
def OnlyMemoryChanged (s t : State) : Prop := t = { s with mem := t.mem, done := true, pending := none }

/-- `t` is `s` after a command that ended with the error code `e` (R256): STATUS and nothing else. -/
def EndsWithError (i : Instr) (s : State) (e : BitVec 4) : Prop :=
  exec i s = .next { s with err := true, errCode := e, done := true, pending := none }

/-- Block b of the data codewords `d` (R148). -/
def dataBlock (d : Nat → Byte) (v : Nat) (lv : Level) (b : Nat) : List Byte :=
  (List.range (blockLength v lv b)).map fun i => d (blockStart v lv b + i)

/-- The address of interior cell (y, x) in GRID (R41, R62). -/
def cellAddr (par : Params) (y x : Nat) : Nat :=
  0x10000 + if par.gridTranspose then (x + 4) * 185 + (y + 4) else (y + 4) * 185 + (x + 4)

/-- Cell (y, x) of the rows of an interior. -/
def cellOf (rows : List (List Module)) (y x : Nat) : Module := (rows.getD y []).getD x .unset

/-- GRID holds the interior `rows` of a symbol of version v, and Light in every other frame cell (R172, R185, R186);
every byte outside GRID's frame cells is as in `s`, but for the bytes in the ranges `also` (base, length). -/
def GridHolds (s t : State) (v : Nat) (cell : Nat → Nat → Module) (also : List (Nat × Nat)) : Prop :=
  (∀ y x, y < side v → x < side v → t.mem.read? (cellAddr s.params y x) = some (cell y x).code) ∧
  (∀ y x, y < 185 → x < 185 → ¬ (4 ≤ y ∧ y < side v + 4 ∧ 4 ≤ x ∧ x < side v + 4) →
    t.mem.read? (0x10000 + (y * 185 + x)) = some 0) ∧
  (∀ a, ¬ (0x10000 ≤ a ∧ a < 0x10000 + 34225) → (∀ r ∈ also, ¬ (r.1 ≤ a ∧ a < r.1 + r.2)) →
    t.mem.read? a = s.mem.read? a)

/-- Bit k of the stream of the codewords `cw` (R162, R182). -/
def streamBit (cw : List Byte) (k : Nat) : Bool := (cw.getD (k / 8) 0).getLsbD (7 - k % 8)

/-- EXP[i] for the reduction polynomial `p`, by the recurrence of R111 from EXP[0] = 1. -/
def expEntry (p : BitVec 9) (i : Nat) : Byte :=
  Nat.iterate (fun x : Byte => (x <<< 1) ^^^ (if x.getLsbD 7 then p.setWidth 8 else 0)) i 1

/-- The element 2 generates the non-zero elements modulo `p` (R110), so that LOG is defined (R112): each non-zero byte is
EXP[i] for exactly one i in 0..254. These are the polynomials R12 leaves GF_POLY open to; 0x11D is one. -/
def IsPrimitive (p : BitVec 9) : Prop :=
  ∀ a : Byte, a ≠ 0 → ∃ i, i < 255 ∧ expEntry p i = a ∧ ∀ j, j < 255 → expEntry p j = a → j = i

/-- The coefficient of g_C at index j by the recurrence of R130: new[j] = old[j] xor gf_mul(old[j−1], gf_exp(i)). -/
def genCoeff (p : BitVec 9) : Nat → Nat → Byte
  | 0, j => if j = 0 then 1 else 0
  | c + 1, j => genCoeff p c j ^^^ gfMul p (if j = 0 then 0 else genCoeff p c (j - 1)) (gfExp p c)

/-- The value at `x` of the polynomial with the coefficients of the list, highest degree first. -/
def polyValue (p : BitVec 9) (x : Byte) (coeffs : List Byte) : Byte :=
  coeffs.foldl (fun acc c => gfMul p acc x ^^^ c) 0

/-- The rows of the square matrix of side n with the entries f y x. -/
def matrixOf (n : Nat) (f : Nat → Nat → Bool) : List (List Bool) :=
  (List.range n).map fun y => (List.range n).map fun x => f y x

/-- i..j−1 is a maximal run of equal values of a line of length n. -/
def isMaximalRun (n : Nat) (f : Nat → Bool) (i j : Nat) : Bool :=
  decide (i < j ∧ j ≤ n) && (List.range n).all (fun k => !decide (i ≤ k ∧ k < j) || f k == f i) &&
    (decide (i = 0) || f (i - 1) != f i) && (decide (j = n) || f j != f i)

/-- What the maximal runs of length L ≥ 5 of a line of length n add: L − 2 each (R215). -/
def lineRunPenalty (n : Nat) (f : Nat → Bool) : Nat :=
  ∑ i ∈ Finset.range n, ∑ j ∈ Finset.range (n + 1), if isMaximalRun n f i j ∧ 5 ≤ j - i then j - i - 2 else 0

/-- P1 of the matrix of side n with the entries f y x (R215): over all n rows and n columns. -/
def rule1Of (n : Nat) (f : Nat → Nat → Bool) : Nat :=
  ∑ l ∈ Finset.range n, (lineRunPenalty n (fun k => f l k) + lineRunPenalty n (fun k => f k l))

/-- P2 (R216): 3 for every position whose 2 × 2 block has equal values. -/
def rule2Of (n : Nat) (f : Nat → Nat → Bool) : Nat :=
  3 * ∑ y ∈ Finset.range (n - 1), ∑ x ∈ Finset.range (n - 1),
    if f y x = f y (x + 1) ∧ f y x = f (y + 1) x ∧ f y x = f (y + 1) (x + 1) then 1 else 0

/-- P3 (R217): 40 for every pattern and every start position in every row and column at which the line's values equal the
pattern. -/
def rule3Of (pats : List (List Bool)) (n : Nat) (f : Nat → Nat → Bool) : Nat :=
  40 * ((pats.map fun p =>
    ∑ l ∈ Finset.range n, ∑ t ∈ Finset.range (n + 1),
      ((if t + p.length ≤ n ∧ ∀ k, k < p.length → p[k]? = some (f l (t + k)) then 1 else 0) +
       (if t + p.length ≤ n ∧ ∀ k, k < p.length → p[k]? = some (f (t + k) l) then 1 else 0))).sum)

/-- P4 for k Dark entries of N (R218): twice the quotient, rounded toward minus infinity, of 100·k − 50·N by N, or of its
absolute value when R4_ABS. -/
def IsRule4 (abs : Bool) (k N : Nat) (p4 : Int) : Prop :=
  let d : Int := if abs then |100 * (k : Int) - 50 * N| else 100 * (k : Int) - 50 * N
  ∃ q : Int, p4 = 2 * q ∧ q * N ≤ d ∧ d < (q + 1) * N

/-- The number of Dark entries k of the matrix of side n (R218). -/
def darkCount (n : Nat) (f : Nat → Nat → Bool) : Nat :=
  ∑ y ∈ Finset.range n, ∑ x ∈ Finset.range n, if f y x then 1 else 0

/-- `p` is the score with its breakdown of the matrix of side n with the entries f y x (true for Dark), field by field as
R215 to R219 give it; for n > 0 there is one such p. -/
structure IsScore (par : Params) (n : Nat) (f : Nat → Nat → Bool) (p : Penalty) : Prop where
  p1 : p.p1 = rule1Of n f
  p2 : p.p2 = rule2Of n f
  p3 : p.p3 = rule3Of par.r3Patterns n f
  p4 : IsRule4 par.r4Abs (darkCount n f) (n * n) p.p4
  dark : p.dark = darkCount n f
  size : p.size = n * n

/-- The side of the scored domain of version v (R214): the interior, or the delivered grid with its quiet zone. -/
def scoredSide (par : Params) (v : Nat) : Nat := if par.scoreIncludesQz then side v + 8 else side v

/-- Entry (y, x) of the scored domain of a complete symbol with the interior `rows` (R214): Dark or not, and Light in the
quiet zone where the domain includes it. -/
def symbolEntry (par : Params) (v : Nat) (rows : List (List Module)) (y x : Nat) : Bool :=
  let o := if par.scoreIncludesQz then 4 else 0
  decide (o ≤ y ∧ y < o + side v ∧ o ≤ x ∧ x < o + side v ∧ cellOf rows (y - o) (x - o) = .dark)

/-- P1 + P2 + P3 + P4, signed (R219). -/
def sumOfRules (p : Penalty) : Int := (p.p1 : Int) + p.p2 + p.p3 + p.p4

/-- The capacity table as R146 prints it, a row for each version 1..40: (R, T, the entries (NB, C, NS, KS, D) of the levels
L, M, Q, H). -/
def printedCapacity : List (Nat × Nat × List (Nat × Nat × Nat × Nat × Nat)) :=
  [(208, 26, [(1, 7, 1, 19, 19), (1, 10, 1, 16, 16), (1, 13, 1, 13, 13), (1, 17, 1, 9, 9)]),
   (359, 44, [(1, 10, 1, 34, 34), (1, 16, 1, 28, 28), (1, 22, 1, 22, 22), (1, 28, 1, 16, 16)]),
   (567, 70, [(1, 15, 1, 55, 55), (1, 26, 1, 44, 44), (2, 18, 2, 17, 34), (2, 22, 2, 13, 26)]),
   (807, 100, [(1, 20, 1, 80, 80), (2, 18, 2, 32, 64), (2, 26, 2, 24, 48), (4, 16, 4, 9, 36)]),
   (1079, 134, [(1, 26, 1, 108, 108), (2, 24, 2, 43, 86), (4, 18, 2, 15, 62), (4, 22, 2, 11, 46)]),
   (1383, 172, [(2, 18, 2, 68, 136), (4, 16, 4, 27, 108), (4, 24, 4, 19, 76), (4, 28, 4, 15, 60)]),
   (1568, 196, [(2, 20, 2, 78, 156), (4, 18, 4, 31, 124), (6, 18, 2, 14, 88), (5, 26, 4, 13, 66)]),
   (1936, 242, [(2, 24, 2, 97, 194), (4, 22, 2, 38, 154), (6, 22, 4, 18, 110), (6, 26, 4, 14, 86)]),
   (2336, 292, [(2, 30, 2, 116, 232), (5, 22, 3, 36, 182), (8, 20, 4, 16, 132), (8, 24, 4, 12, 100)]),
   (2768, 346, [(4, 18, 2, 68, 274), (5, 26, 4, 43, 216), (8, 24, 6, 19, 154), (8, 28, 6, 15, 122)])] ++
  [(3232, 404, [(4, 20, 4, 81, 324), (5, 30, 1, 50, 254), (8, 28, 4, 22, 180), (11, 24, 3, 12, 140)]),
   (3728, 466, [(4, 24, 2, 92, 370), (8, 22, 6, 36, 290), (10, 26, 4, 20, 206), (11, 28, 7, 14, 158)]),
   (4256, 532, [(4, 26, 4, 107, 428), (9, 22, 8, 37, 334), (12, 24, 8, 20, 244), (16, 22, 12, 11, 180)]),
   (4651, 581, [(4, 30, 3, 115, 461), (9, 24, 4, 40, 365), (16, 20, 11, 16, 261), (16, 24, 11, 12, 197)]),
   (5243, 655, [(6, 22, 5, 87, 523), (10, 24, 5, 41, 415), (12, 30, 5, 24, 295), (18, 24, 11, 12, 223)]),
   (5867, 733, [(6, 24, 5, 98, 589), (10, 28, 7, 45, 453), (17, 24, 15, 19, 325), (16, 30, 3, 15, 253)]),
   (6523, 815, [(6, 28, 1, 107, 647), (11, 28, 10, 46, 507), (16, 28, 1, 22, 367), (19, 28, 2, 14, 283)]),
   (7211, 901, [(6, 30, 5, 120, 721), (13, 26, 9, 43, 563), (18, 28, 17, 22, 397), (21, 28, 2, 14, 313)]),
   (7931, 991, [(7, 28, 3, 113, 795), (14, 26, 3, 44, 627), (21, 26, 17, 21, 445), (25, 26, 9, 13, 341)]),
   (8683, 1085, [(8, 28, 3, 107, 861), (16, 26, 3, 41, 669), (20, 30, 15, 24, 485), (25, 28, 15, 15, 385)])] ++
  [(9252, 1156, [(8, 28, 4, 116, 932), (17, 26, 17, 42, 714), (23, 28, 17, 22, 512), (25, 30, 19, 16, 406)]),
   (10068, 1258, [(9, 28, 2, 111, 1006), (17, 28, 17, 46, 782), (23, 30, 7, 24, 568), (34, 24, 34, 13, 442)]),
   (10916, 1364, [(9, 30, 4, 121, 1094), (18, 28, 4, 47, 860), (25, 30, 11, 24, 614), (30, 30, 16, 15, 464)]),
   (11796, 1474, [(10, 30, 6, 117, 1174), (20, 28, 6, 45, 914), (27, 30, 11, 24, 664), (32, 30, 30, 16, 514)]),
   (12708, 1588, [(12, 26, 8, 106, 1276), (21, 28, 8, 47, 1000), (29, 30, 7, 24, 718), (35, 30, 22, 15, 538)]),
   (13652, 1706, [(12, 28, 10, 114, 1370), (23, 28, 19, 46, 1062), (34, 28, 28, 22, 754), (37, 30, 33, 16, 596)]),
   (14628, 1828, [(12, 30, 8, 122, 1468), (25, 28, 22, 45, 1128), (34, 30, 8, 23, 808), (40, 30, 12, 15, 628)]),
   (15371, 1921, [(13, 30, 3, 117, 1531), (26, 28, 3, 45, 1193), (35, 30, 4, 24, 871), (42, 30, 11, 15, 661)]),
   (16411, 2051, [(14, 30, 7, 116, 1631), (28, 28, 21, 45, 1267), (38, 30, 1, 23, 911), (45, 30, 19, 15, 701)]),
   (17483, 2185, [(15, 30, 5, 115, 1735), (29, 28, 19, 47, 1373), (40, 30, 15, 24, 985), (48, 30, 23, 15, 745)])] ++
  [(18587, 2323, [(16, 30, 13, 115, 1843), (31, 28, 2, 46, 1455), (43, 30, 42, 24, 1033), (51, 30, 23, 15, 793)]),
   (19723, 2465, [(17, 30, 17, 115, 1955), (33, 28, 10, 46, 1541), (45, 30, 10, 24, 1115), (54, 30, 19, 15, 845)]),
   (20891, 2611, [(18, 30, 17, 115, 2071), (35, 28, 14, 46, 1631), (48, 30, 29, 24, 1171), (57, 30, 11, 15, 901)]),
   (22091, 2761, [(19, 30, 13, 115, 2191), (37, 28, 14, 46, 1725), (51, 30, 44, 24, 1231), (60, 30, 59, 16, 961)]),
   (23008, 2876, [(19, 30, 12, 121, 2306), (38, 28, 12, 47, 1812), (53, 30, 39, 24, 1286), (63, 30, 22, 15, 986)]),
   (24272, 3034, [(20, 30, 6, 121, 2434), (40, 28, 6, 47, 1914), (56, 30, 46, 24, 1354), (66, 30, 2, 15, 1054)]),
   (25568, 3196, [(21, 30, 17, 122, 2566), (43, 28, 29, 46, 1992), (59, 30, 49, 24, 1426), (70, 30, 24, 15, 1096)]),
   (26896, 3362, [(22, 30, 4, 122, 2702), (45, 28, 13, 46, 2102), (62, 30, 48, 24, 1502), (74, 30, 42, 15, 1142)]),
   (28256, 3532, [(24, 30, 20, 117, 2812), (47, 28, 40, 47, 2216), (65, 30, 43, 24, 1582), (77, 30, 10, 15, 1222)]),
   (29648, 3706, [(25, 30, 19, 118, 2956), (49, 28, 18, 47, 2334), (68, 30, 34, 24, 1666), (81, 30, 20, 15, 1276)])]

/-- The alignment coordinate lists as R177 prints them, by version 1..40. -/
def printedAlignment : List (List Nat) :=
  [[], [6, 18], [6, 22], [6, 26], [6, 30]] ++
  [[6, 34], [6, 22, 38], [6, 24, 42], [6, 26, 46], [6, 28, 50]] ++
  [[6, 30, 54], [6, 32, 58], [6, 34, 62], [6, 26, 46, 66], [6, 26, 48, 70]] ++
  [[6, 26, 50, 74], [6, 30, 54, 78], [6, 30, 56, 82], [6, 30, 58, 86], [6, 34, 62, 90]] ++
  [[6, 28, 50, 72, 94], [6, 26, 50, 74, 98], [6, 30, 54, 78, 102], [6, 28, 54, 80, 106], [6, 32, 58, 84, 110]] ++
  [[6, 30, 58, 86, 114], [6, 34, 62, 90, 118], [6, 26, 50, 74, 98, 122], [6, 30, 54, 78, 102, 126], [6, 26, 52, 78, 104, 130]] ++
  [[6, 30, 56, 82, 108, 134], [6, 34, 60, 86, 112, 138], [6, 30, 58, 86, 114, 142], [6, 34, 62, 90, 118, 146], [6, 30, 54, 78, 102, 126, 150]] ++
  [[6, 24, 50, 76, 102, 128, 154], [6, 28, 54, 80, 106, 132, 158], [6, 32, 58, 84, 110, 136, 162], [6, 26, 54, 82, 110, 138, 166], [6, 30, 58, 86, 114, 142, 170]]

/-- The version information as R175 prints it, by version 7..40. -/
def printedVerInfo : List Nat :=
  [0x07C94, 0x085BC, 0x09A99, 0x0A4D3, 0x0BBF6, 0x0C762, 0x0D847, 0x0E60D, 0x0F928] ++
  [0x10B78, 0x1145D, 0x12A17, 0x13532, 0x149A6, 0x15683, 0x168C9, 0x177EC, 0x18EC4] ++
  [0x191E1, 0x1AFAB, 0x1B08E, 0x1CC1A, 0x1D33F, 0x1ED75, 0x1F250, 0x209D5, 0x216F0] ++
  [0x228BA, 0x2379F, 0x24B0B, 0x2542E, 0x26A64, 0x27541, 0x28C69]

/-- The format information as R179 prints it, by mask 0..7. -/
def printedFmtInfo : Level → List Nat
  | .L => [0x77C4, 0x72F3, 0x7DAA, 0x789D, 0x662F, 0x6318, 0x6C41, 0x6976]
  | .M => [0x5412, 0x5125, 0x5E7C, 0x5B4B, 0x45F9, 0x40CE, 0x4F97, 0x4AA0]
  | .Q => [0x355F, 0x3068, 0x3F31, 0x3A06, 0x24B4, 0x2183, 0x2EDA, 0x2BED]
  | .H => [0x1689, 0x13BE, 0x1CE7, 0x19D0, 0x0762, 0x0255, 0x0D0C, 0x083B]

/-- The product of two polynomials over GF(2), whose coefficients are the bits of the numbers (q of degree below 32). -/
def polyProduct (q g : Nat) : Nat :=
  (List.range 32).foldl (fun acc i => acc ^^^ (if q.testBit i then g <<< i else 0)) 0

/-- The byte region an aligned address lies in is mapped (R62). -/
def IsRegionAddr (a : Nat) : Prop := (0x1000 ≤ a ∧ a < 0x4100) ∨ (0x10000 ≤ a ∧ a < 0x18600)

/-- The address is a mapped offset of the register block (R22). -/
def IsRegisterAddr (a : Nat) : Prop :=
  a % 4 = 0 ∧ (a ≤ 0x034 ∨ (0x040 ≤ a ∧ a ≤ 0x068) ∨ (0x080 ≤ a ∧ a ≤ 0x08C))

/-- The regions a command writes on success (R259). -/
def writtenRegions : Instr → List Region
  | .genPoly _ => [.gen]
  | .rsEnc _ => [.ecc]
  | .eccBlocks => [.ecc]
  | .interleave => [.cw]
  | .buildFunc _ => [.grid]
  | .build _ => [.grid]
  | .autoMask => [.grid]
  | .generate _ => [.ecc, .cw, .grid]
  | .generateAuto => [.ecc, .cw, .grid]
  | _ => []

/-- The commands that write RESULT (R259, R241). -/
def writesResult : Instr → Bool
  | .gfAdd _ _ | .gfMul _ _ | .gfInv _ | .gfExp _ | .gfLog _ | .maskEval _ _ _ _ | .sreset => true
  | _ => false

/-- The commands that write MASKSEL (R259, R241). -/
def writesMaskSel : Instr → Bool
  | .build _ | .autoMask | .generate _ | .generateAuto | .sreset => true
  | _ => false

/-- The commands that write SCORE, SCORE_R1..R4, SCORE_DARK and SCORE_N (R259, R241). -/
def writesScore : Instr → Bool
  | .score | .autoMask | .generateAuto | .sreset => true
  | _ => false

/-- The commands that write SCORE_M0..M7 (R259, R241). -/
def writesScoreM : Instr → Bool
  | .autoMask | .generateAuto | .sreset => true
  | _ => false

end Sys2Proof.Machine

open Sys2Proof Sys2Proof.Machine

/-! ## Decoding and stepping -/

/-- R91 to R98: decoding the word of a well-formed command gives the command back, every operand at every value its
field admits. -/
def Obligations.DecodeEncodeRoundTrip : Prop :=
  ∀ i : Instr, i.WellFormed → decodeWord (encode i) = some i

/-- R98, R100: a word that decodes is the word of the command it decodes to, and that command is well-formed: no bit that
a format requires to be 0 is dropped. -/
def Obligations.DecodedWordIsItsEncoding : Prop :=
  ∀ (w : Word) (i : Instr), decodeWord w = some i → i.WellFormed ∧ encode i = w

/-- R98, R99, R100: each of the 18 (match, mask) rows of the opcode map with its command: a word the row selects decodes to
that command, with its fields taken as unsigned numbers from the bits of the row's pattern; a word no row selects decodes to
none; and at most one row selects any word. -/
def Obligations.OpcodeRowsSelectCommands : Prop :=
  ∀ w : Word,
    let byteAt (lo : Nat) : Byte := w.extractLsb' lo 8
    let maskAt (lo : Nat) : MaskId := Fin.ofNat 8 (w.extractLsb' lo 3).toNat
    let rows : List (Word × Word × Instr) :=
      [(0x00000000, 0xFFFFFFFF, .nop),
       (0x00000001, 0xFFFFFFFF, .sreset),
       (0x00000010, 0xFF0000FF, .gfAdd (byteAt 8) (byteAt 16)),
       (0x00000011, 0xFF0000FF, .gfMul (byteAt 8) (byteAt 16)),
       (0x00000012, 0xFFFF00FF, .gfInv (byteAt 8)),
       (0x00000013, 0xFFFF00FF, .gfExp (byteAt 8).toNat),
       (0x00000014, 0xFFFF00FF, .gfLog (byteAt 8)),
       (0x00000020, 0xFFFF00FF, .genPoly (byteAt 8).toNat),
       (0x00000021, 0xFFFF00FF, .rsEnc (byteAt 8).toNat),
       (0x00000030, 0xFFFFFFFF, .eccBlocks),
       (0x00000031, 0xFFFFFFFF, .interleave),
       (0x00000040, 0xFFFFF8FF, .buildFunc (maskAt 8)),
       (0x00000041, 0xFFFFF8FF, .build (maskAt 8)),
       (0x00000050, 0xF00000FF, .maskEval (byteAt 8).toNat (byteAt 16).toNat (maskAt 24) (w.getLsbD 27)),
       (0x00000051, 0xFFFFFFFF, .score),
       (0x00000052, 0xFFFFFFFF, .autoMask),
       (0x00000060, 0xFFFFF8FF, .generate (maskAt 8)),
       (0x00000860, 0xFFFFFFFF, .generateAuto)]
    (∀ r ∈ rows, w &&& r.2.1 = r.1 → decodeWord w = some r.2.2) ∧
    ((∀ r ∈ rows, w &&& r.2.1 ≠ r.1) → decodeWord w = none) ∧
    ∀ r ∈ rows, ∀ r' ∈ rows, w &&& r.2.1 = r.1 → w &&& r'.2.1 = r'.1 → r = r'

/-- Words written out from the encodings of R91 to R98 (those of 95_test_vectors.md) decode to the commands they stand
for. -/
def Obligations.SampleWordsDecode : Prop :=
  decodeWord 0x00000000 = some .nop ∧
  decodeWord 0x00CA5310 = some (.gfAdd 0x53 0xCA) ∧
  decodeWord 0x00001913 = some (.gfExp 25) ∧
  decodeWord 0x00000A21 = some (.rsEnc 10) ∧
  decodeWord 0x00000141 = some (.build 1) ∧
  decodeWord 0x0D030250 = some (.maskEval 2 3 5 true) ∧
  decodeWord 0x00000160 = some (.generate 1) ∧
  decodeWord 0x00000860 = some .generateAuto ∧
  decodeWord 0x00000960 = none ∧ decodeWord 0x01CA5310 = none ∧ decodeWord 0x00000100 = none

/-- R256, R60, R61, R270: when the pending word decodes to a command, the engine's step is exec of that command (at the state
with the engine's turn taken off the list of events, where it stood there), a fault setting `faulted` and nothing else; the
word placed by withFetchWord is the one the very next step runs; and at a host transaction, with the reset input released,
the step performs that transaction: a read answers what busRead gives and changes nothing else, a write answers what
busWrite gives and leaves its state. With no word pending the engine's turn changes nothing. (The list of events with the engine's turn at its end is log 1, the recorded responses
log 3, the count of draws log 4, the step of a faulting command log 6, the step of an idle core log 13, withFetchWord log
2.) -/
def Obligations.StepRunsPendingCommand : Prop :=
  (∀ (s : State) (w : Word) (i : Instr), s.faulted = false → decodeWord w = some i →
    (s.pending = some w → s.events = [] →
      (∀ t, exec i s = .next t → step s = .next t) ∧
      (∀ f, exec i s = .fault f → step s = .next { s with faulted := true })) ∧
    (∀ rest, s.pending = some w → s.events = .engine :: rest →
      (∀ t, exec i { s with events := rest } = .next t → step s = .next t) ∧
      (∀ f, exec i { s with events := rest } = .fault f →
        step s = .next { s with events := rest, faulted := true })) ∧
    (let a := { s with lastCmd := w, pending := some w, done := false, err := false, errCode := 0 }
     (∀ t, exec i a = .next t → step (s.withFetchWord 32 w.toNat) = .next t) ∧
     (∀ f, exec i a = .fault f → step (s.withFetchWord 32 w.toNat) = .next { a with faulted := true }))) ∧
  (∀ (s : State) (rest : List Event), s.faulted = false → s.rst = false →
    (∀ addr, s.events = .host (.read addr) :: rest →
      step s = .next { s with
        events := rest, draws := s.draws + 1
        responses := .read (s.busRead addr).1 (s.busRead addr).2 :: s.responses }) ∧
    (∀ addr w strb, s.events = .host (.write addr w strb) :: rest →
      step s = .next { (s.busWrite addr w strb).2 with
        events := rest
        responses := .write (s.busWrite addr w strb).1 :: s.responses })) ∧
  (∀ s : State, s.faulted = false → s.pending = none →
    (s.events = [] → step s = .next s) ∧
    (∀ rest, s.events = .engine :: rest → step s = .next { s with events := rest }))

/-- R252: at the engine's turn a pending word that decodes to no command completes with ILLEGAL_CMD and has no other
effect. The turn is the `.engine` event at the head of the events, and the engine has it too when no event is left (the
model's choice, log 1). -/
def Obligations.IllegalWordEndsWithIllegalCmd : Prop :=
  ∀ (s : State) (w : Word), s.faulted = false → s.pending = some w → decodeWord w = none →
    (s.events = [] → step s = .next { s with err := true, errCode := 1, done := true, pending := none }) ∧
    (∀ rest, s.events = .engine :: rest →
      step s = .next { s with events := rest, err := true, errCode := 1, done := true, pending := none })

/-- R48, R264: the fault of a command leaves the machine stuck: every state that has `faulted` set answers the fault, and
no event, a reset neither, takes it out of it. -/
def Obligations.FaultedMachineIsStuck : Prop :=
  (∀ s : State, s.faulted = true → step s = .fault .readUnwritten) ∧
  (∀ (s : State) (i : Instr) (w : Word) (f : Fault), s.faulted = false → s.pending = some w →
    decodeWord w = some i → s.events = [] → exec i s = .fault f →
    ∃ t, step s = .next t ∧ step t = .fault .readUnwritten ∧ t = { s with faulted := true }) ∧
  (∀ (s : State) (level : Bool), (s.hardReset level).faulted = s.faulted)

/-! ## Control commands -/

/-- R240, R241: NOP only completes; SRESET clears the configuration, result and score registers and OVR and keeps CTRL,
LASTCMD and the memories. -/
def Obligations.ControlCommandResults : Prop :=
  ∀ s : State,
    exec .nop s = .next { s with done := true, pending := none } ∧
    exec .sreset s = .next { s with
      version := 0, ecl := 0, result := 0, mask := 0, mvalid := false
      score := 0, scoreR1 := 0, scoreR2 := 0, scoreR3 := 0, scoreR4 := 0, scoreDark := 0, scoreN := 0
      scoreM := Vector.replicate 8 0, rsSrc := 0, rsLen := 0, rsDst := 0, ovr := false
      done := true, pending := none }

/-! ## Field arithmetic -/

/-- R110, R118: GF_ADD writes the exclusive or of its operands to RESULT and nothing else. -/
def Obligations.GfAddResult : Prop :=
  ∀ (a b : Byte) (s : State), exec (.gfAdd a b) s = .next { s with result := a ^^^ b, done := true, pending := none }

/-- R110 to R113, R119: GF_MUL writes the field product to RESULT and nothing else, in every state; for every polynomial
the product with 0 is 0 and the product with 2 is a step of EXP's recurrence; where 2 is primitive, as for the default
0x11D, the product is the table form of R113: EXP[(LOG[a] + LOG[b]) mod 255], and LOG is that of R112. -/
def Obligations.GfMulResult : Prop :=
  (∀ (a b : Byte) (s : State), exec (.gfMul a b) s =
    .next { s with result := gfMul s.params.gfPoly a b, done := true, pending := none }) ∧
  (∀ (p : BitVec 9) (a b : Byte), a = 0 ∨ b = 0 → gfMul p a b = 0) ∧
  (∀ (p : BitVec 9) (a : Byte), gfMul p a 2 = (a <<< 1) ^^^ (if a.getLsbD 7 then p.setWidth 8 else 0)) ∧
  IsPrimitive 0x11D ∧
  (∀ p : BitVec 9, IsPrimitive p →
    (∀ (i j : Nat), i < 255 → j < 255 → gfMul p (expEntry p i) (expEntry p j) = expEntry p ((i + j) % 255)) ∧
    (∀ a : Byte, a ≠ 0 → (gfLog p a).toNat < 255 ∧ expEntry p (gfLog p a).toNat = a))

/-- R114, R120: GF_INV of a non-zero operand writes an element to RESULT and nothing else; at every polynomial for which 2 is
primitive it is the one element b with gf_mul(a, b) = 1. -/
def Obligations.GfInvResult : Prop :=
  ∀ (a : Byte) (s : State), a ≠ 0 →
    let p := s.params.gfPoly
    ∃ b, exec (.gfInv a) s = .next { s with result := b, done := true, pending := none } ∧
      (IsPrimitive p → gfMul p a b = 1 ∧ ∀ c, gfMul p a c = 1 → c = b)

/-- R111, R115, R121: GF_EXP writes EXP[n mod 255] to RESULT and nothing else, EXP by the recurrence of R111, at every
polynomial. -/
def Obligations.GfExpResult : Prop :=
  ∀ (n : Nat) (s : State), n < 256 →
    exec (.gfExp n) s = .next { s with
      result := expEntry s.params.gfPoly (n % 255), done := true, pending := none }

/-- R112, R116, R122: GF_LOG of a non-zero operand writes a byte to RESULT and nothing else; at every polynomial for which 2
is primitive it is the one exponent in 0..254 whose power is the operand. -/
def Obligations.GfLogResult : Prop :=
  ∀ (a : Byte) (s : State), a ≠ 0 →
    let p := s.params.gfPoly
    ∃ r : Byte, exec (.gfLog a) s = .next { s with result := r, done := true, pending := none } ∧
      (IsPrimitive p → r.toNat < 255 ∧ expEntry p r.toNat = a ∧ ∀ i, i < 255 → expEntry p i = a → i = r.toNat)

/-- R117: the arithmetic laws of the field. Those of the ring hold for every reduction polynomial, those of the inverse
and the logarithm for every one at which 2 is primitive. -/
def Obligations.FieldLaws : Prop :=
  (∀ (p : BitVec 9) (a b c : Byte),
    gfAdd a b = gfAdd b a ∧ gfAdd (gfAdd a b) c = gfAdd a (gfAdd b c) ∧
    gfMul p a b = gfMul p b a ∧ gfMul p (gfMul p a b) c = gfMul p a (gfMul p b c) ∧
    gfMul p a (gfAdd b c) = gfAdd (gfMul p a b) (gfMul p a c) ∧
    gfAdd a a = 0 ∧ gfMul p a 1 = a ∧ gfMul p a 0 = 0) ∧
  (∀ p : BitVec 9, IsPrimitive p →
    (∀ a : Byte, a ≠ 0 → gfMul p a (gfInv p a) = 1 ∧ gfExp p (gfLog p a).toNat = a) ∧
    (∀ n : Nat, (gfLog p (gfExp p n)).toNat = n % 255))

/-- R254, R255: GF_INV 0 and GF_LOG 0 end with GF_ZERO, and GF_MUL with a zero operand and GF_EXP raise nothing; GEN_POLY
0, and RS_ENC with C = 0 or a window or result past the end of its region, end with RANGE, whatever the memory holds. -/
def Obligations.OperandErrors : Prop :=
  ∀ s : State,
    EndsWithError (.gfInv 0) s 3 ∧ EndsWithError (.gfLog 0) s 3 ∧
    (∀ (a : Byte) (n : Nat) (t : State),
      exec (.gfMul 0 a) s = .next t ∨ exec (.gfMul a 0) s = .next t ∨ exec (.gfExp n) s = .next t →
      t.err = s.err ∧ t.errCode = s.errCode) ∧
    EndsWithError (.genPoly 0) s 4 ∧
    ∀ c, c = 0 ∨ 4096 < s.rsSrc.toNat + s.rsLen.toNat ∨ 4096 < s.rsDst.toNat + c → EndsWithError (.rsEnc c) s 4

/-! ## Reed-Solomon -/

/-- R130, R134: GEN_POLY writes the C + 1 coefficients of the generator polynomial, by the recurrence of R130, to
GEN[0..C], and nothing else. -/
def Obligations.GenPolyWritesGenerator : Prop :=
  ∀ (c : Nat) (s : State), 1 ≤ c → c ≤ 255 →
    ∃ t, exec (.genPoly c) s = .next t ∧ OnlyMemoryChanged s t ∧
      ∀ a, t.mem.read? a =
        if 0x4000 ≤ a ∧ a ≤ 0x4000 + c then some (genCoeff s.params.gfPoly c (a - 0x4000)) else s.mem.read? a

/-- R132, R135: RS_ENC in range, with its message bytes m[0..K−1] written, writes the C correction codewords of the message
to ECC[RS_DST..], and nothing else. -/
def Obligations.RsEncWritesRemainder : Prop :=
  ∀ (c : Nat) (s : State) (m : List Byte), 1 ≤ c → c ≤ 255 →
    s.rsSrc.toNat + s.rsLen.toNat ≤ 4096 → s.rsDst.toNat + c ≤ 4096 → m.length = s.rsLen.toNat →
    (∀ k, k < m.length → s.mem.read? (0x1000 + s.rsSrc.toNat + k) = m[k]?) →
    ∃ t, exec (.rsEnc c) s = .next t ∧ OnlyMemoryChanged s t ∧
      ∀ a, t.mem.read? a =
        if 0x2000 + s.rsDst.toNat ≤ a ∧ a < 0x2000 + s.rsDst.toNat + c
        then (rsRemainder s.params.gfPoly m c)[a - (0x2000 + s.rsDst.toNat)]? else s.mem.read? a

/-- R132, R133: a block followed by its C correction codewords is a multiple of the generator polynomial: its polynomial is
0 at every root α^0..α^(C−1) of g_C; and there are exactly C correction codewords. -/
def Obligations.CodewordHasGeneratorRoots : Prop :=
  ∀ (p : BitVec 9) (m : List Byte) (c : Nat),
    (rsRemainder p m c).length = c ∧
    ∀ i, i < c → polyValue p (gfExp p i) (m ++ rsRemainder p m c) = 0

/-- R132, R148, R150: ECC_BLOCKS writes the correction codewords of block b to ECC[b·C..b·C+C−1] for every block, and
nothing else. -/
def Obligations.EccBlocksWritesRemainders : Prop :=
  ∀ (s : State) (v : Nat) (d : Nat → Byte), s.AtVersion v → s.Holds .data (dataCodewords v s.level) d →
    ∃ t, exec .eccBlocks s = .next t ∧ OnlyMemoryChanged s t ∧
      ∀ a, t.mem.read? a =
        if 0x2000 ≤ a ∧ a < 0x2000 + blockCount v s.level * eccPerBlock v s.level then
          (rsRemainder s.params.gfPoly (dataBlock d v s.level ((a - 0x2000) / eccPerBlock v s.level))
            (eccPerBlock v s.level))[(a - 0x2000) % eccPerBlock v s.level]?
        else s.mem.read? a

/-- R160, R161: INTERLEAVE writes the T codewords to CW[0..T−1] in the positions of R160's closed form, and nothing else:
byte i of data block b at i·NB + b for i < KS, the last byte of a long block at KS·NB + (b − NS), and correction byte i
of block b at D + i·NB + b. -/
def Obligations.InterleavePlacesCodewords : Prop :=
  ∀ (s : State) (v : Nat) (d e : Nat → Byte), s.AtVersion v → s.Holds .data (dataCodewords v s.level) d →
    s.Holds .ecc (blockCount v s.level * eccPerBlock v s.level) e →
    let nb := blockCount v s.level
    let ks := shortLength v s.level
    ∃ t, exec .interleave s = .next t ∧ OnlyMemoryChanged s t ∧
      (∀ b i, b < nb → i < ks →
        t.mem.read? (0x3000 + (i * nb + b)) = some (d (blockStart v s.level b + i))) ∧
      (∀ b, shortBlocks v s.level ≤ b → b < nb →
        t.mem.read? (0x3000 + (ks * nb + (b - shortBlocks v s.level))) = some (d (blockStart v s.level b + ks))) ∧
      (∀ b i, b < nb → i < eccPerBlock v s.level →
        t.mem.read? (0x3000 + (dataCodewords v s.level + (i * nb + b))) = some (e (b * eccPerBlock v s.level + i))) ∧
      (∀ a, ¬ (0x3000 ≤ a ∧ a < 0x3000 + totalCodewords v) → t.mem.read? a = s.mem.read? a)

/-- R253, R258: every symbol command ends with UNSUPPORTED_VERSION when CFG.VERSION is 0 or 41..63, whatever else the state
holds, and never faults there; at a legal version no command raises that error, at any level. -/
def Obligations.UnsupportedVersionErrors : Prop :=
  (∀ (s : State) (m : MaskId), s.version.toNat = 0 ∨ 41 ≤ s.version.toNat →
    EndsWithError .eccBlocks s 2 ∧ EndsWithError .interleave s 2 ∧ EndsWithError (.buildFunc m) s 2 ∧
    EndsWithError (.build m) s 2 ∧ EndsWithError .score s 2 ∧ EndsWithError .autoMask s 2 ∧
    EndsWithError (.generate m) s 2 ∧ EndsWithError .generateAuto s 2) ∧
  (∀ (s t : State) (v : Nat) (i : Instr), s.AtVersion v → s.errCode ≠ 2 → exec i s = .next t → t.errCode ≠ 2)

/-- R74, R264: a command whose rule reads a byte that was never written faults with READ_UNWRITTEN instead of
completing. -/
def Obligations.UnwrittenInputsFault : Prop :=
  (∀ (c k : Nat) (s : State), 1 ≤ c → s.rsSrc.toNat + s.rsLen.toNat ≤ 4096 → s.rsDst.toNat + c ≤ 4096 →
    k < s.rsLen.toNat → s.mem.read? (0x1000 + s.rsSrc.toNat + k) = none →
    exec (.rsEnc c) s = .fault .readUnwritten) ∧
  (∀ (s : State) (v k : Nat) (m : MaskId), s.AtVersion v → k < dataCodewords v s.level →
    s.mem.read? (0x1000 + k) = none →
    exec .eccBlocks s = .fault .readUnwritten ∧ exec .interleave s = .fault .readUnwritten ∧
    exec (.generate m) s = .fault .readUnwritten ∧ exec .generateAuto s = .fault .readUnwritten) ∧
  (∀ (s : State) (v k : Nat), s.AtVersion v → k < blockCount v s.level * eccPerBlock v s.level →
    s.mem.read? (0x2000 + k) = none → exec .interleave s = .fault .readUnwritten) ∧
  (∀ (s : State) (v k : Nat) (m : MaskId), s.AtVersion v → k < totalCodewords v →
    s.mem.read? (0x3000 + k) = none →
    exec (.build m) s = .fault .readUnwritten ∧ exec .autoMask s = .fault .readUnwritten) ∧
  (∀ (s : State) (v y x : Nat), s.AtVersion v →
    let n := if s.params.scoreIncludesQz then side v + 8 else side v
    let o := if s.params.scoreIncludesQz then 0 else 4
    y < n → x < n → s.mem.read? (0x10000 + ((o + y) * 185 + (o + x))) = none →
    exec .score s = .fault .readUnwritten)

/-! ## The matrix builder -/

/-- R173: in every symbol the 8 × 8 footprints of the three finder patterns hold the rings of R173 around the centres
(3, 3), (3, s−4) and (s−4, 3): Dark at distance 0, 1 and 3, Light at distance 2 and 4. -/
def Obligations.FinderPatternsPlaced : Prop :=
  ∀ (v : Nat) (lv : Level) (m : MaskId) (y x : Nat), 1 ≤ v → v ≤ 40 → y ≤ 7 → x ≤ 7 →
    let ring (d : Nat) : Module := if d = 0 ∨ d = 1 ∨ d = 3 then .dark else .light
    functionGrid v lv m y x = ring (max (gap y 3) (gap x 3)) ∧
    functionGrid v lv m y (side v - 8 + x) = ring (max (gap y 3) (gap (side v - 8 + x) (side v - 4))) ∧
    functionGrid v lv m (side v - 8 + y) x = ring (max (gap (side v - 8 + y) (side v - 4)) (gap x 3))

/-- R176, R177: the alignment coordinates are those R177 prints, by its closed form 6, then steps of one even width up to
s − 7; and in every symbol the 5 × 5 square around each pair of them, but for the three corner pairs, holds a Dark ring, a
Light ring and a Dark centre. -/
def Obligations.AlignmentPatternsPlaced : Prop :=
  (∀ v, 1 ≤ v → v ≤ 40 → printedAlignment[v - 1]? = some (alignmentCoords v)) ∧
  ∀ (v : Nat) (lv : Level) (m : MaskId), 2 ≤ v → v ≤ 40 →
    let al := alignmentCoords v
    let n := v / 7 + 2
    let width := 2 * ((8 * v + 3 * n + 5) / (4 * n - 4))
    al.length = n ∧ al[0]? = some 6 ∧
    (∀ i, 1 ≤ i → i < n → al[i]? = some (side v - 7 - (n - 1 - i) * width)) ∧
    ∀ cy ∈ al, ∀ cx ∈ al, ¬ (cy = 6 ∧ cx = 6) → ¬ (cy = 6 ∧ cx = side v - 7) → ¬ (cy = side v - 7 ∧ cx = 6) →
      ∀ dy dx, dy ≤ 4 → dx ≤ 4 →
        functionGrid v lv m (cy - 2 + dy) (cx - 2 + dx) =
          if max (gap dy 2) (gap dx 2) = 1 then .light else .dark

/-- R178, R179, R180, R187: in every symbol both format copies read back as FMTINFO of the level and the mask, bit by bit
in the places of R178, and the module (s − 8, 8) is Dark. FMTINFO xor 0x5412 is the level's E and the mask in bits [14:10] and
below them the remainder modulo 0x537 (so that the whole is a multiple of 0x537 over GF(2)); its 32 values are those R179
prints. -/
def Obligations.FormatInformationPlaced : Prop :=
  (∀ (lv : Level) (m : MaskId),
    let e : Nat := match lv with | .L => 1 | .M => 0 | .Q => 3 | .H => 2
    (fmtInfo lv m ^^^ 0x5412) / 2 ^ 10 = 8 * e + m.val ∧
    (∃ q, q < 2 ^ 5 ∧ polyProduct q 0x537 = fmtInfo lv m ^^^ 0x5412) ∧
    (printedFmtInfo lv)[m.val]? = some (fmtInfo lv m)) ∧
  ∀ (v : Nat) (lv : Level) (m : MaskId), 1 ≤ v → v ≤ 40 →
    (∀ i, i < 15 →
      functionGrid v lv m
        (if i ≤ 5 then i else if i = 6 then 7 else 8) (if i ≤ 7 then 8 else if i = 8 then 7 else 14 - i) =
        .ofBit ((fmtInfo lv m).testBit i) ∧
      functionGrid v lv m
        (if i ≤ 7 then 8 else side v - 15 + i) (if i ≤ 7 then side v - 1 - i else 8) =
        .ofBit ((fmtInfo lv m).testBit i)) ∧
    functionGrid v lv m (side v - 8) 8 = .dark

/-- R174, R187: in every symbol of version 7 and up both copies of the version information read back as VERINFO, and
VERINFO is the version followed by the 12 bits of its remainder modulo 0x1F25 (so that the whole is a multiple of 0x1F25 over
GF(2)), the values R175 prints; below version 7 the step places nothing. -/
def Obligations.VersionInformationPlaced : Prop :=
  (∀ (v : Nat) (lv : Level) (m : MaskId), 7 ≤ v → v ≤ 40 →
    (∀ i, i < 18 →
      functionGrid v lv m (i / 3) (side v - 11 + i % 3) = .ofBit ((verInfo v).testBit i) ∧
      functionGrid v lv m (side v - 11 + i % 3) (i / 3) = .ofBit ((verInfo v).testBit i)) ∧
    verInfo v / 2 ^ 12 = v ∧ (∃ q, q < 2 ^ 6 ∧ polyProduct q 0x1F25 = verInfo v) ∧
    printedVerInfo[v - 7]? = some (verInfo v)) ∧
  (∀ (v : Nat) (g : Grid), v < 7 → versionStep v g = g)

/-- R181: row 6 and column 6 alternate between the finder patterns, Dark on even indices, and step 5 changes no cell that
is set and no cell off row 6 and column 6. -/
def Obligations.TimingPatternsPlaced : Prop :=
  (∀ (v : Nat) (lv : Level) (m : MaskId) (i : Nat), 1 ≤ v → v ≤ 40 → 8 ≤ i → i + 9 ≤ side v →
    functionGrid v lv m 6 i = .ofBit (decide (i % 2 = 0)) ∧
    functionGrid v lv m i 6 = .ofBit (decide (i % 2 = 0))) ∧
  (∀ (g : Grid) (i : Nat),
    timingStep g 6 i = (if g 6 i = .unset then .ofBit (decide (i % 2 = 0)) else g 6 i) ∧
    timingStep g i 6 = (if g i 6 = .unset then .ofBit (decide (i % 2 = 0)) else g i 6)) ∧
  (∀ (g : Grid) (y x : Nat), y ≠ 6 → x ≠ 6 → timingStep g y x = g y x)

/-- R145, R187, R190: the function patterns are the same for all masks and levels but for the format information, and the set
of data-area cells depends on the version only; that set has R(v) cells, so the 8·T bits of the codewords all have one and
fewer than 8 cells, R − 8·T, are left over. -/
def Obligations.MaskChangesOnlyFormatInformation : Prop :=
  (∀ (v : Nat) (lv lv' : Level) (m m' : MaskId) (y x : Nat), 1 ≤ v → v ≤ 40 → y < side v → x < side v →
    (functionGrid v lv m y x = .unset ↔ functionGrid v lv' m' y x = .unset) ∧
    (functionGrid v lv m y x ≠ functionGrid v lv' m' y x →
      ∃ i, i < 15 ∧ ((y, x) = formatCell1 i ∨ (y, x) = formatCell2 (side v) i))) ∧
  (∀ (v : Nat) (lv : Level) (m : MaskId), 1 ≤ v → v ≤ 40 →
    (dataCells v lv m).length = dataModules v ∧
    (dataCells v lv m).length = 8 * totalCodewords v + remainderModules v ∧ remainderModules v < 8)

/-- R172, R186, R188: BUILD_FUNC stores the function patterns, the data area Unset and every other frame cell Light, and
changes nothing else. -/
def Obligations.BuildFuncStoresFunctionPatterns : Prop :=
  ∀ (s : State) (v : Nat) (m : MaskId), s.AtVersion v →
    ∃ t, exec (.buildFunc m) s = .next t ∧ OnlyMemoryChanged s t ∧
      GridHolds s t v (functionGrid v s.level m) []

/-- R183: the zigzag of a symbol visits every interior cell off column 6 exactly once, s·(s−1) cells, in this order: the
column pairs from the right, the k-th upward for even k and downward for odd k, in each row the right column first; the k-th
pair's right column is s − 1 − 2·k right of column 6, and one less from there on. -/
def Obligations.ZigzagVisitsEveryCellOnce : Prop :=
  ∀ v, 1 ≤ v → v ≤ 40 →
    (zigzag (side v)).Nodup ∧ (zigzag (side v)).length = side v * (side v - 1) ∧
    (∀ y x, (y, x) ∈ zigzag (side v) ↔ y < side v ∧ x < side v ∧ x ≠ 6) ∧
    ∀ k vert e, 2 * k + 1 < side v → vert < side v → e < 2 →
      let right := if 6 < side v - 1 - 2 * k then side v - 1 - 2 * k else side v - 2 - 2 * k
      (zigzag (side v))[2 * (k * side v + vert) + e]? =
        some (if k % 2 = 0 then side v - 1 - vert else vert, right - e)

/-- R184: the k-th data-area cell in zigzag order carries bit k of the stream, inverted where the mask says; beyond the
stream it is Light, masked only when REMAINDER_MASKED; every other interior cell is a function-pattern cell. -/
def Obligations.DataBitsPlacedMasked : Prop :=
  ∀ (par : Params) (v : Nat) (lv : Level) (m : MaskId) (cw : List Byte), 1 ≤ v → v ≤ 40 →
    (∀ k y x, (dataCells v lv m)[k]? = some (y, x) →
      cellOf (symbolRows par v lv m cw) y x =
        if k < 8 * cw.length then .ofBit (streamBit cw k ^^ maskBit m x y)
        else .ofBit (par.remainderMasked && maskBit m x y)) ∧
    (∀ y x, y < side v → x < side v → functionGrid v lv m y x ≠ .unset →
      cellOf (symbolRows par v lv m cw) y x = functionGrid v lv m y x)

/-- R187: no interior cell of a completed symbol is Unset, for every version, level, mask, parameter and codewords. -/
def Obligations.CompletedSymbolHasNoUnset : Prop :=
  ∀ (par : Params) (v : Nat) (lv : Level) (m : MaskId) (cw : List Byte) (y x : Nat),
    1 ≤ v → v ≤ 40 → y < side v → x < side v → cellOf (symbolRows par v lv m cw) y x ≠ .unset

/-- R185, R186, R189: BUILD stores the symbol of the codewords CW[0..T−1] under its mask with Light around it, writes MASKSEL
and changes nothing else. -/
def Obligations.BuildStoresSymbol : Prop :=
  ∀ (s : State) (v : Nat) (m : MaskId) (cw : List Byte), s.AtVersion v → cw.length = totalCodewords v →
    (∀ k, k < cw.length → s.mem.read? (0x3000 + k) = cw[k]?) →
    ∃ t, exec (.build m) s = .next t ∧
      t = { s with mem := t.mem, mask := BitVec.ofNat 3 m.val, mvalid := true, done := true, pending := none } ∧
      GridHolds s t v (cellOf (symbolRows s.params v s.level m cw)) []

/-! ## Masks and scores -/

/-- R211, R213: MASK_EVAL writes BIT xor mask(MASK, X, Y) to RESULT, by the table of R211, and nothing else. -/
def Obligations.MaskEvalResult : Prop :=
  ∀ (x y : Nat) (bit : Bool) (s : State),
    let answers (m : MaskId) (inverts : Prop) : Prop :=
      (inverts → exec (.maskEval x y m bit) s =
        .next { s with result := (if bit then 0 else 1), done := true, pending := none }) ∧
      (¬ inverts → exec (.maskEval x y m bit) s =
        .next { s with result := (if bit then 1 else 0), done := true, pending := none })
    answers 0 ((x + y) % 2 = 0) ∧ answers 1 (y % 2 = 0) ∧ answers 2 (x % 3 = 0) ∧ answers 3 ((x + y) % 3 = 0) ∧
    answers 4 ((x / 3 + y / 2) % 2 = 0) ∧ answers 5 ((x * y) % 2 + (x * y) % 3 = 0) ∧
    answers 6 (((x * y) % 2 + (x * y) % 3) % 2 = 0) ∧ answers 7 (((x * y) % 3 + (x + y) % 2) % 2 = 0)

/-- R215: Rule 1 adds L − 2 for every maximal run of length L ≥ 5 of every row and every column. -/
def Obligations.RunPenaltyCountsMaximalRuns : Prop :=
  ∀ (n : Nat) (f : Nat → Nat → Bool),
    penalty1 (matrixOf n f ++ transpose n (matrixOf n f)) = rule1Of n f

/-- R216: Rule 2 adds 3 for every position whose 2 × 2 block has equal values. -/
def Obligations.BlockPenaltyCountsBlocks : Prop :=
  ∀ (n : Nat) (f : Nat → Nat → Bool), penalty2 (matrixOf n f) = rule2Of n f

/-- R217: Rule 3 adds 40 for every pattern and every start position in every row and column at which the line's values equal
the pattern; the default patterns are 10111010000 and 00001011101. -/
def Obligations.PatternPenaltyCountsOccurrences : Prop :=
  Params.default.r3Patterns =
    [[true, false, true, true, true, false, true, false, false, false, false],
     [false, false, false, false, true, false, true, true, true, false, true]] ∧
  ∀ (n : Nat) (f : Nat → Nat → Bool) (pats : List (List Bool)),
    penalty3 pats (matrixOf n f ++ transpose n (matrixOf n f)) = rule3Of pats n f

/-- R218: Rule 4 is twice the quotient, rounded toward minus infinity, of 100·k − 50·N by N, or of its absolute value when
R4_ABS. -/
def Obligations.BalancePenaltyRoundsDown : Prop :=
  ∀ (abs : Bool) (k n : Nat), 0 < n → IsRule4 abs k n (penalty4 abs k n)

/-- R215 to R219: the score of every non-empty square matrix is, field by field, what the rules give, and the score and its
breakdown are invariant under transposition of the scored matrix. -/
def Obligations.ScoreFollowsRulesAndTransposition : Prop :=
  (∀ (par : Params) (n : Nat) (f : Nat → Nat → Bool), 0 < n → IsScore par n f (scoreOf par n (matrixOf n f))) ∧
  (∀ (par : Params) (n : Nat) (f : Nat → Nat → Bool),
    scoreOf par n (matrixOf n fun y x => f x y) = scoreOf par n (matrixOf n f))

/-- R214 to R220: SCORE of a domain whose cells are all written and Light or Dark (`f` says which are Dark) reports in
SCORE, SCORE_R1..R4, SCORE_DARK and SCORE_N the score of that matrix as R215 to R219 give it, and changes nothing else. -/
def Obligations.ScoreReportsPenalty : Prop :=
  ∀ (s : State) (v : Nat) (f : Nat → Nat → Bool), s.AtVersion v →
    let n := scoredSide s.params v
    let o := if s.params.scoreIncludesQz then 0 else 4
    (∀ y x, y < n → x < n → s.mem.read? (0x10000 + ((o + y) * 185 + (o + x))) = some (if f y x then 1 else 0)) →
    ∃ p : Penalty, IsScore s.params n f p ∧
      exec .score s = .next { s with
        score := BitVec.ofInt 32 (sumOfRules p)
        scoreR1 := BitVec.ofNat 32 p.p1, scoreR2 := BitVec.ofNat 32 p.p2
        scoreR3 := BitVec.ofNat 32 p.p3, scoreR4 := BitVec.ofInt 32 p.p4
        scoreDark := BitVec.ofNat 16 p.dark, scoreN := BitVec.ofNat 16 p.size
        done := true, pending := none }

/-- R220, R257, R258: SCORE of a domain whose cells are all written and one of which holds code 2 or 3 ends with
GRID_INCOMPLETE and changes nothing else. -/
def Obligations.ScoreRefusesIncompleteGrid : Prop :=
  ∀ (s : State) (v : Nat) (g : Nat → Nat → Byte) (y₀ x₀ : Nat), s.AtVersion v →
    let n := if s.params.scoreIncludesQz then side v + 8 else side v
    let o := if s.params.scoreIncludesQz then 0 else 4
    (∀ y x, y < n → x < n → s.mem.read? (0x10000 + ((o + y) * 185 + (o + x))) = some (g y x)) →
    y₀ < n → x₀ < n → g y₀ x₀ = 2 ∨ g y₀ x₀ = 3 → EndsWithError .score s 5

/-- R214, R221, R222: AUTO_MASK scores the symbol of every mask by R215 to R219, on the domain of R214, stores the symbol
with the least total, the lowest mask among equals, reports its score and all eight totals, and changes nothing else. -/
def Obligations.AutoMaskKeepsFirstMinimum : Prop :=
  ∀ (s : State) (v : Nat) (cw : List Byte), s.AtVersion v → cw.length = totalCodewords v →
    (∀ k, k < cw.length → s.mem.read? (0x3000 + k) = cw[k]?) →
    ∃ (t : State) (best : MaskId) (p : MaskId → Penalty), exec .autoMask s = .next t ∧
      (∀ m, IsScore s.params (scoredSide s.params v)
        (symbolEntry s.params v (symbolRows s.params v s.level m cw)) (p m)) ∧
      (∀ m, sumOfRules (p best) ≤ sumOfRules (p m)) ∧ (∀ m, m < best → sumOfRules (p best) < sumOfRules (p m)) ∧
      (∀ m : MaskId, t.scoreM[m] = BitVec.ofInt 32 (sumOfRules (p m))) ∧
      t = { s with
        mem := t.mem, scoreM := t.scoreM, mask := BitVec.ofNat 3 best.val, mvalid := true
        score := BitVec.ofInt 32 (sumOfRules (p best))
        scoreR1 := BitVec.ofNat 32 (p best).p1, scoreR2 := BitVec.ofNat 32 (p best).p2
        scoreR3 := BitVec.ofNat 32 (p best).p3, scoreR4 := BitVec.ofInt 32 (p best).p4
        scoreDark := BitVec.ofNat 16 (p best).dark, scoreN := BitVec.ofNat 16 (p best).size
        done := true, pending := none } ∧
      GridHolds s t v (cellOf (symbolRows s.params v s.level best cw)) []

/-- R219, R220, R222: scoring the grid AUTO_MASK left changes nothing: SCORE reads back exactly the score AUTO_MASK reported
(scenario B of 95_test_vectors.md, for every input and every parameter). -/
def Obligations.RescoringConfirmsAutoMask : Prop :=
  ∀ s t : State, s.err = false → exec .autoMask s = .next t → t.err = false → exec .score t = .next t

/-! ## Composite commands -/

/-- R242, R243: GENERATE is ECC_BLOCKS, then INTERLEAVE, then BUILD; GENERATE.AUTO is ECC_BLOCKS, then INTERLEAVE, then
AUTO_MASK. -/
def Obligations.GenerateIsComposition : Prop :=
  ∀ (s a b c : State) (m : MaskId),
    exec .eccBlocks s = .next a → exec .interleave a = .next b →
    (exec (.build m) b = .next c → exec (.generate m) s = .next c) ∧
    (exec .autoMask b = .next c → exec .generateAuto s = .next c)

/-- R242, R243, R259: with the payload written, GENERATE and GENERATE.AUTO complete; GENERATE writes MASKSEL, ECC[0..NB·C−1],
CW[0..T−1] and GRID and nothing else, and GENERATE.AUTO the score registers besides. -/
def Obligations.GenerateCompletes : Prop :=
  ∀ (s : State) (v : Nat) (m : MaskId) (d : Nat → Byte), s.AtVersion v →
    s.Holds .data (dataCodewords v s.level) d →
    let ranges := [(0x2000, blockCount v s.level * eccPerBlock v s.level), (0x3000, totalCodewords v)]
    (∃ (t : State) (cw : List Byte), exec (.generate m) s = .next t ∧ cw.length = totalCodewords v ∧
      (∀ k, k < cw.length → t.mem.read? (0x3000 + k) = cw[k]?) ∧
      t = { s with mem := t.mem, mask := BitVec.ofNat 3 m.val, mvalid := true, done := true, pending := none } ∧
      GridHolds s t v (cellOf (symbolRows s.params v s.level m cw)) ranges) ∧
    (∃ (t : State) (cw : List Byte) (best : MaskId), exec .generateAuto s = .next t ∧
      cw.length = totalCodewords v ∧ (∀ k, k < cw.length → t.mem.read? (0x3000 + k) = cw[k]?) ∧
      t = { s with
        mem := t.mem, mask := BitVec.ofNat 3 best.val, mvalid := true, scoreM := t.scoreM, score := t.score
        scoreR1 := t.scoreR1, scoreR2 := t.scoreR2, scoreR3 := t.scoreR3, scoreR4 := t.scoreR4
        scoreDark := t.scoreDark, scoreN := t.scoreN, done := true, pending := none } ∧
      GridHolds s t v (cellOf (symbolRows s.params v s.level best cw)) ranges)

/-- R5, R150, R242: the symbol GENERATE and GENERATE.AUTO produce depends on CFG, the parameters and DATA[0..D−1] only: two
states that agree on those give the same correction codewords, codewords, grid and mask. -/
def Obligations.SymbolDependsOnPayloadOnly : Prop :=
  ∀ (s s' t t' : State) (v : Nat) (d : Nat → Byte) (i : Instr),
    s.AtVersion v → s'.AtVersion v → s.ecl = s'.ecl → s.params = s'.params →
    s.Holds .data (dataCodewords v s.level) d → s'.Holds .data (dataCodewords v s'.level) d →
    (i = .generateAuto ∨ ∃ m, i = .generate m) → exec i s = .next t → exec i s' = .next t' →
    t.mask = t'.mask ∧ t.mvalid = t'.mvalid ∧
    (∀ a, (0x2000 ≤ a ∧ a < 0x2000 + blockCount v s.level * eccPerBlock v s.level) ∨
        (0x3000 ≤ a ∧ a < 0x3000 + totalCodewords v) ∨ (0x10000 ≤ a ∧ a < 0x10000 + 34225) →
      t.mem.read? a = t'.mem.read? a) ∧
    (i = .generateAuto → t.score = t'.score ∧ t.scoreM = t'.scoreM)

/-! ## Whole-machine rules -/

/-- R42, R256, R259: what a command writes, over all commands: only its regions and its registers of the table of outcomes;
CTRL, LASTCMD and the parameters never, OVR and the configuration registers by SRESET only; and it completes: DONE = 1,
BUSY = 0. -/
def Obligations.CommandsWriteOnlyTheirTargets : Prop :=
  ∀ (i : Instr) (s t : State), i.WellFormed → exec i s = .next t →
    (∀ (r : Region) (k : Nat), r ∉ writtenRegions i → k < r.size →
      t.mem.read? (r.base + k) = s.mem.read? (r.base + k)) ∧
    t.done = true ∧ t.pending = none ∧ t.ctrlIE = s.ctrlIE ∧ t.lastCmd = s.lastCmd ∧ t.params = s.params ∧
    t.faulted = s.faulted ∧ t.rst = s.rst ∧ t.events = s.events ∧ t.responses = s.responses ∧ t.draws = s.draws ∧
    (i ≠ .sreset → t.ovr = s.ovr ∧ t.version = s.version ∧ t.ecl = s.ecl ∧
      t.rsSrc = s.rsSrc ∧ t.rsLen = s.rsLen ∧ t.rsDst = s.rsDst) ∧
    (writesResult i = false → t.result = s.result) ∧
    (writesMaskSel i = false → t.mask = s.mask ∧ t.mvalid = s.mvalid) ∧
    (writesScore i = false → t.score = s.score ∧ t.scoreR1 = s.scoreR1 ∧ t.scoreR2 = s.scoreR2 ∧
      t.scoreR3 = s.scoreR3 ∧ t.scoreR4 = s.scoreR4 ∧ t.scoreDark = s.scoreDark ∧ t.scoreN = s.scoreN) ∧
    (writesScoreM i = false → t.scoreM = s.scoreM)

/-- R251, R256: errors are precise, over all commands: a command that ends with ERR = 1 wrote nothing but STATUS, with one
of the codes 2 to 5; one that succeeds leaves ERR and ERRCODE as acceptance set them. -/
def Obligations.ErrorsArePrecise : Prop :=
  ∀ (i : Instr) (s t : State), s.err = false → s.errCode = 0 → exec i s = .next t →
    (t.err = true → 2 ≤ t.errCode.toNat ∧ t.errCode.toNat ≤ 5 ∧
      t = { s with err := true, errCode := t.errCode, done := true, pending := none }) ∧
    (t.err = false → t.errCode = 0)

/-- R300: from a pending command, within as many steps as there are events plus one, whatever the events are, BUSY is released
(by the command's completion, or by a reset edge that abandons it, R281) or the model fault of R264 is recorded. (The list of
events as the schedule, with the engine's turn at its end, is log 1.) -/
def Obligations.PendingCommandReleasesBusyOrFaults : Prop :=
  ∀ s : State, s.faulted = false → s.busy = true →
    ∃ (n : Nat) (t : State), n ≤ s.events.length + 1 ∧ Sys2Proof.core.run n s = .next t ∧
      (t.busy = false ∨ t.faulted = true)

/-! ## The bus -/

/-- R63, R64, R66, R69, R70, R261: a transaction answers ERROR in exactly the five cases of R261, and then changes no state
and reads 0. (That GRID's padding, 0x185B1..0x185FF, answers ERROR while BUSY like the cells of GRID is the model's reading of
R62, R68 and R69: log 12.) -/
def Obligations.BusErrorsExactly : Prop :=
  ∀ (s : State) (addr : Addr) (w : Word) (strb : BitVec 4),
    let a := addr.toNat
    ((s.busRead addr).1 = .error ↔
      a % 4 ≠ 0 ∨ ¬ (IsRegisterAddr a ∨ IsRegionAddr a) ∨ (IsRegionAddr a ∧ s.busy = true)) ∧
    ((s.busRead addr).1 = .error → (s.busRead addr).2 = 0) ∧
    ((s.busWrite addr w strb).1 = .error ↔
      a % 4 ≠ 0 ∨ ¬ (IsRegisterAddr a ∨ IsRegionAddr a) ∨ (IsRegisterAddr a ∧ strb ≠ 0b1111) ∨
      (IsRegionAddr a ∧ s.busy = true) ∨
      ((a = 0x010 ∨ a = 0x060 ∨ a = 0x064 ∨ a = 0x068) ∧ s.busy = true)) ∧
    ((s.busWrite addr w strb).1 = .error → (s.busWrite addr w strb).2 = s)

/-- R25, R27, R29, R35, R66, R70: what a full-strobe write to each register but CMD does: CTRL and STATUS always, CFG and the
RS registers while not BUSY, the read-only registers never. -/
def Obligations.RegisterWriteEffects : Prop :=
  ∀ (s : State) (w : Word),
    s.busWrite 0x004 w 0b1111 = (.okay, { s with ctrlIE := w.getLsbD 0 }) ∧
    s.busWrite 0x008 w 0b1111 = (.okay, { s with
      done := (if w.getLsbD 1 then false else s.done), err := (if w.getLsbD 2 then false else s.err)
      errCode := (if w.getLsbD 2 then 0 else s.errCode), ovr := (if w.getLsbD 3 then false else s.ovr) }) ∧
    (s.busy = false →
      s.busWrite 0x010 w 0b1111 =
        (.okay, { s with version := w.extractLsb' 0 6, ecl := w.extractLsb' 8 2 }) ∧
      s.busWrite 0x060 w 0b1111 = (.okay, { s with rsSrc := w.extractLsb' 0 12 }) ∧
      s.busWrite 0x064 w 0b1111 = (.okay, { s with rsLen := w.extractLsb' 0 12 }) ∧
      s.busWrite 0x068 w 0b1111 = (.okay, { s with rsDst := w.extractLsb' 0 12 })) ∧
    (∀ addr : Addr, IsRegisterAddr addr.toNat →
      addr.toNat ∉ [0x004, 0x008, 0x00C, 0x010, 0x060, 0x064, 0x068] →
      s.busWrite addr w 0b1111 = (.okay, s))

/-- R28, R256, R260: a CMD write is accepted when BUSY = 0 and dropped with OVR set when BUSY = 1; both answer OKAY. -/
def Obligations.CmdWriteAcceptsOrOverruns : Prop :=
  ∀ (s : State) (w : Word),
    (s.busy = false → s.busWrite 0x00C w 0b1111 = (.okay, { s with
      lastCmd := w, pending := some w, done := false, err := false, errCode := 0 })) ∧
    (s.busy = true → s.busWrite 0x00C w 0b1111 = (.okay, { s with ovr := true }))

/-- R21 to R35, R49, R66, R71: what a read of each stored register gives: the exact value of ID, CTRL, STATUS, CMD, CFG and
the RS registers always, of the result registers while not BUSY (while BUSY they answer OKAY with an unspecified value),
reserved bits 0. -/
def Obligations.RegisterReadsExact : Prop :=
  ∀ s : State,
    s.busRead 0x000 = (.okay, 0x51520001) ∧
    s.busRead 0x004 = (.okay, if s.ctrlIE then 1 else 0) ∧
    (∃ w : Word, s.busRead 0x008 = (.okay, w) ∧
      w.toNat = s.pending.isSome.toNat + 2 * s.done.toNat + 4 * s.err.toNat + 8 * s.ovr.toNat +
        256 * s.errCode.toNat) ∧
    s.busRead 0x00C = (.okay, s.lastCmd) ∧
    (∃ w : Word, s.busRead 0x010 = (.okay, w) ∧ w.toNat = s.version.toNat + 256 * s.ecl.toNat) ∧
    s.busRead 0x060 = (.okay, s.rsSrc.setWidth 32) ∧ s.busRead 0x064 = (.okay, s.rsLen.setWidth 32) ∧
    s.busRead 0x068 = (.okay, s.rsDst.setWidth 32) ∧
    (s.busy = false →
      s.busRead 0x014 = (.okay, s.result.setWidth 32) ∧
      (∃ w : Word, s.busRead 0x018 = (.okay, w) ∧ w.toNat = s.mask.toNat + 8 * s.mvalid.toNat) ∧
      s.busRead 0x01C = (.okay, s.score) ∧ s.busRead 0x020 = (.okay, s.scoreR1) ∧
      s.busRead 0x024 = (.okay, s.scoreR2) ∧ s.busRead 0x028 = (.okay, s.scoreR3) ∧
      s.busRead 0x02C = (.okay, s.scoreR4) ∧ s.busRead 0x030 = (.okay, s.scoreDark.setWidth 32) ∧
      s.busRead 0x034 = (.okay, s.scoreN.setWidth 32) ∧
      ∀ m : MaskId, s.busRead (BitVec.ofNat 17 (0x040 + 4 * m.val)) = (.okay, s.scoreM[m])) ∧
    (s.busy = true → ∀ addr ∈ ([0x014, 0x018, 0x01C, 0x020, 0x024, 0x028, 0x02C, 0x030, 0x034] : List Addr),
      (s.busRead addr).1 = .okay)

/-- R29, R36 to R39, R141 to R146, R149: the INFO registers show the capacity entry of CFG in their fields, every other bit
0, and 0 when CFG.VERSION is outside 1..40; the entries are those R146 prints, and D = T − NB·C = NS·KS + (NB − NS)·(KS + 1). -/
def Obligations.InfoRegistersDecodeCfg : Prop :=
  (∀ (s : State) (v : Nat), s.AtVersion v →
    ∃ size cw blk raw : Word,
      s.busRead 0x080 = (.okay, size) ∧ s.busRead 0x084 = (.okay, cw) ∧
      s.busRead 0x088 = (.okay, blk) ∧ s.busRead 0x08C = (.okay, raw) ∧
      size.toNat = 4 * v + 17 ∧
      cw.toNat = dataCodewords v s.level + 2 ^ 16 * totalCodewords v ∧
      dataCodewords v s.level < 2 ^ 12 ∧ totalCodewords v < 2 ^ 12 ∧
      blk.toNat = blockCount v s.level + 2 ^ 8 * eccPerBlock v s.level + 2 ^ 16 * shortLength v s.level +
        2 ^ 24 * shortBlocks v s.level ∧
      blockCount v s.level < 2 ^ 7 ∧ eccPerBlock v s.level < 2 ^ 8 ∧ shortLength v s.level < 2 ^ 8 ∧
      shortBlocks v s.level < 2 ^ 7 ∧
      raw.toNat = dataModules v + 2 ^ 16 * (dataModules v - 8 * totalCodewords v) ∧
      dataModules v < 2 ^ 15 ∧ dataModules v - 8 * totalCodewords v < 2 ^ 3) ∧
  (∀ s : State, s.version.toNat = 0 ∨ 41 ≤ s.version.toNat →
    ∀ addr ∈ ([0x080, 0x084, 0x088, 0x08C] : List Addr), s.busRead addr = (.okay, 0)) ∧
  (∀ v, 1 ≤ v → v ≤ 40 →
    printedCapacity[v - 1]? = some (dataModules v, totalCodewords v,
      [Level.L, .M, .Q, .H].map fun lv =>
        (blockCount v lv, eccPerBlock v lv, shortBlocks v lv, shortLength v lv, dataCodewords v lv)) ∧
    ∀ lv : Level,
      dataCodewords v lv + blockCount v lv * eccPerBlock v lv = totalCodewords v ∧
      1 ≤ shortBlocks v lv ∧ shortBlocks v lv ≤ blockCount v lv ∧
      dataCodewords v lv =
        shortBlocks v lv * shortLength v lv + (blockCount v lv - shortBlocks v lv) * (shortLength v lv + 1)) ∧
  (∀ s : State, s.level =
    if s.ecl.toNat = 0 then .L else if s.ecl.toNat = 1 then .M else if s.ecl.toNat = 2 then .Q else .H)

/-- R67, R68: a region write stores the lanes whose strobe is 1, a GRID lane its bits [1:0], GRID's padding nothing, and no
other byte and no register changes. -/
def Obligations.RegionWriteStoresLanes : Prop :=
  ∀ (s : State) (addr : Addr) (w : Word) (strb : BitVec 4), addr.toNat % 4 = 0 → IsRegionAddr addr.toNat →
    s.busy = false →
    ∃ t : State, s.busWrite addr w strb = (.okay, t) ∧ t = { s with mem := t.mem } ∧
      ∀ a, t.mem.read? a =
        if addr.toNat ≤ a ∧ a < addr.toNat + 4 ∧ strb.getLsbD (a - addr.toNat) = true ∧ a < 0x10000 + 34225 then
          some (if 0x10000 ≤ a then w.extractLsb' (8 * (a - addr.toNat)) 8 &&& 3
            else w.extractLsb' (8 * (a - addr.toNat)) 8)
        else s.mem.read? a

/-- R65, R68, R72, R73: a region read gives the four bytes little-endian, GRID's padding 0, an unwritten GRID cell some code
0..3; and reading changes nothing of the core. -/
def Obligations.RegionReadGivesWord : Prop :=
  ∀ (s : State) (addr : Addr),
    (addr.toNat % 4 = 0 → IsRegionAddr addr.toNat → s.busy = false →
      ∃ w : Word, s.busRead addr = (.okay, w) ∧
        (∀ i b, i < 4 → addr.toNat + i < 0x10000 + 34225 → s.mem.read? (addr.toNat + i) = some b →
          w.extractLsb' (8 * i) 8 = b) ∧
        (∀ i, i < 4 → 0x10000 + 34225 ≤ addr.toNat + i → w.extractLsb' (8 * i) 8 = 0) ∧
        (∀ i, i < 4 → 0x10000 ≤ addr.toNat → s.mem.read? (addr.toNat + i) = none →
          (w.extractLsb' (8 * i) 8).toNat < 4)) ∧
    ∃ r d, s.transact (.read addr) = { s with responses := .read r d :: s.responses, draws := s.draws + 1 }

/-! ## Reset, the interrupt and the invariant -/

/-- R50, R280, R281, R282: at an edge of the reset input every register takes its reset value, the pending command is
abandoned, every written bit is false, and `faulted` keeps its value; while the input is asserted no transaction is
accepted. (The level, the events and the other fields of the model's own are the model's choice: log 10.) -/
def Obligations.HardResetState : Prop :=
  (∀ (s : State) (level : Bool) (rest : List Event), s.faulted = false → s.events = .rst level :: rest →
    step s = .next {
      ctrlIE := false, done := false, err := false, ovr := false, errCode := 0, lastCmd := 0, pending := none
      version := 0, ecl := 0, result := 0, mask := 0, mvalid := false
      score := 0, scoreR1 := 0, scoreR2 := 0, scoreR3 := 0, scoreR4 := 0, scoreDark := 0, scoreN := 0
      scoreM := Vector.replicate 8 0, rsSrc := 0, rsLen := 0, rsDst := 0, mem := []
      faulted := false, rst := level, params := s.params, events := rest, responses := s.responses
      draws := s.draws }) ∧
  (∀ (s : State) (txn : Txn) (rest : List Event), s.faulted = false → s.rst = true →
    s.events = .host txn :: rest → step s = .next { s with events := rest })

/-- R51, R262: `irq` is CTRL.IE and DONE; completion raises it, and a STATUS write of bit 1, a CTRL write of 0 and the
acceptance of the next command clear it. -/
def Obligations.InterruptFollowsDone : Prop :=
  ∀ s : State,
    s.irq = (s.ctrlIE && s.done) ∧
    (∀ (i : Instr) (t : State), exec i s = .next t → t.irq = s.ctrlIE) ∧
    (∀ w : Word, w.getLsbD 1 = true → (s.busWrite 0x008 w 0b1111).2.irq = false) ∧
    (∀ w : Word, w.getLsbD 0 = false → (s.busWrite 0x004 w 0b1111).2.irq = false) ∧
    (∀ w : Word, s.busy = false → (s.busWrite 0x00C w 0b1111).2.irq = false)

/-- The invariant of the core holds right after reset. -/
def Obligations.InvariantHoldsAtReset : Prop := State.reset.Inv

/-- Every step keeps the invariant of the core, from every state that has it. -/
def Obligations.StepKeepsInvariant : Prop :=
  ∀ s t : State, s.Inv → step s = .next t → t.Inv
end

