-- ==== Sys2Proof/Laws/Memory.lean ====
section
/-! SUPPORT. The laws of the byte memory: what a read gives after a write, what an engine read of a range gives, and that every operation keeps the canonical form. -/

namespace Sys2Proof.Machine

/-! ## Reading one byte -/

@[simp] theorem Memory.read?_nil (a : Nat) : Memory.read? [] a = none := rfl

theorem Memory.read?_cons (c : Host.Cell) (m : Memory) (a : Nat) :
    Memory.read? (c :: m) a = if c.1 = a then some c.2 else Memory.read? m a := rfl

theorem Memory.read?_append (m₁ m₂ : Memory) (a : Nat) :
    Memory.read? (m₁ ++ m₂) a = (Memory.read? m₁ a).or (Memory.read? m₂ a) := by
  induction m₁ with
  | nil => simp
  | cons c m ih =>
    rw [List.cons_append, read?_cons, read?_cons]
    split <;> simp [*]

theorem Memory.read?_filter (p : Nat → Bool) (m : Memory) (a : Nat) :
    Memory.read? (m.filter fun c => p c.1) a = if p a then Memory.read? m a else none := by
  induction m with
  | nil => simp
  | cons c m ih =>
    rw [List.filter_cons]
    by_cases hc : c.1 = a
    · subst hc
      by_cases hp : p c.1 <;> simp [hp, ih, read?_cons]
    · by_cases hp : p c.1 <;> simp [hp, ih, read?_cons, hc]

theorem Memory.read?_cells (a : Nat) (bs : List Byte) (x : Nat) :
    Memory.read? (Memory.cells a bs) x = if a ≤ x then bs[x - a]? else none := by
  induction bs generalizing a with
  | nil => simp [cells]
  | cons b bs ih =>
    rw [cells, read?_cons, ih]
    rcases Nat.lt_trichotomy a x with h | h | h
    · obtain ⟨d, rfl⟩ := Nat.exists_eq_add_of_lt h
      have e : a + d + 1 - a = (a + d + 1 - (a + 1)) + 1 := by omega
      rw [if_neg (by omega), if_pos (by omega), if_pos (by omega), e, List.getElem?_cons_succ]
    · subst h; simp
    · rw [if_neg (by omega), if_neg (by omega), if_neg (by omega)]

/-- What a read gives after a write: the written byte inside the written range, and what it gave before outside. -/
theorem Memory.read?_write (m : Memory) (a : Nat) (bs : List Byte) (x : Nat) :
    (m.write a bs).read? x = if a ≤ x ∧ x < a + bs.length then bs[x - a]? else m.read? x := by
  have h1 := read?_filter (fun k => decide (k < a)) m x
  have h2 := read?_filter (fun k => decide (a + bs.length ≤ k)) m x
  simp only [decide_eq_true_eq] at h1 h2
  rw [write, read?_append, read?_append, read?_cells, h1, h2]
  by_cases hlt : x < a
  · rw [if_pos hlt, if_neg (by omega), if_neg (by omega), if_neg (by omega)]
    cases m.read? x <;> rfl
  · by_cases hin : x < a + bs.length
    · rw [if_neg hlt, if_pos (by omega), if_neg (by omega), if_pos (by omega)]
      have : x - a < bs.length := by omega
      simp [this]
    · rw [if_neg hlt, if_pos (by omega), if_pos (by omega), if_neg (by omega)]
      have : bs.length ≤ x - a := by omega
      simp [this]

/-! ## Reading a range -/

/-- What an engine read of a range gives: the bytes of the range when every one of them has been written. -/
theorem Memory.readBytes_eq_some (m : Memory) (a n : Nat) (bs : List Byte) :
    m.readBytes a n = some bs ↔ bs.length = n ∧ ∀ k, k < n → m.read? (a + k) = bs[k]? := by
  induction n generalizing a bs with
  | zero =>
    simp only [readBytes, Option.some.injEq, Nat.not_lt_zero, false_implies, implies_true, and_true]
    rw [List.length_eq_zero_iff]; exact eq_comm
  | succ n ih =>
    constructor
    · intro h
      rw [readBytes] at h
      split at h
      · next b bs' hb hbs' =>
        obtain rfl := Option.some.inj h
        obtain ⟨hl, hk⟩ := (ih (a + 1) bs').1 hbs'
        refine ⟨by simp [hl], fun k hkn => ?_⟩
        cases k with
        | zero => simpa using hb
        | succ k =>
          have := hk k (by omega)
          rw [List.getElem?_cons_succ, ← this]; congr 1; omega
      · exact absurd h (by simp)
    · rintro ⟨hl, hk⟩
      cases bs with
      | nil => simp at hl
      | cons b bs =>
        have h0 := hk 0 (by omega)
        simp only [Nat.add_zero, List.getElem?_cons_zero] at h0
        have h1 : m.readBytes (a + 1) n = some bs := by
          refine (ih (a + 1) bs).2 ⟨by simpa using hl, fun k hkn => ?_⟩
          have := hk (k + 1) (by omega)
          rw [List.getElem?_cons_succ] at this; rw [← this]; congr 1; omega
        simp [readBytes, h0, h1]

theorem Memory.readBytes_isSome (m : Memory) (a n : Nat) :
    (m.readBytes a n).isSome = true ↔ ∀ k, k < n → (m.read? (a + k)).isSome = true := by
  induction n generalizing a with
  | zero => simp [readBytes]
  | succ n ih =>
    constructor
    · intro h k hk
      rw [Option.isSome_iff_exists] at h
      obtain ⟨bs, hbs⟩ := h
      obtain ⟨hl, hr⟩ := (readBytes_eq_some m a (n + 1) bs).1 hbs
      rw [hr k hk]; simp; omega
    · intro h
      have h0 := h 0 (by omega)
      have h1 : (m.readBytes (a + 1) n).isSome = true := by
        refine (ih (a + 1)).2 fun k hk => ?_
        have := h (k + 1) (by omega)
        rwa [show a + 1 + k = a + (k + 1) by omega]
      rw [Option.isSome_iff_exists] at h0 h1
      obtain ⟨b, hb⟩ := h0
      obtain ⟨bs, hbs⟩ := h1
      rw [Nat.add_zero] at hb
      simp [readBytes, hb, hbs]

theorem Memory.read?_window (m : Memory) (a n x : Nat) :
    (m.window a n).read? x = if a ≤ x ∧ x < a + n then m.read? x else none := by
  have := read?_filter (fun k => decide (a ≤ k ∧ k < a + n)) m x
  simpa [window] using this

/-- An engine read of a region (R74) is the read of its bytes one by one. -/
theorem State.load_eq_some (s : State) (r : Region) (i n : Nat) (bs : List Byte) :
    s.load r i n = some bs ↔
      bs.length = n ∧ ∀ k, k < n → s.mem.read? (r.base + i + k) = bs[k]? := by
  rw [load, Memory.readBytes_eq_some]
  refine and_congr_right fun _ => forall_congr' fun k => imp_congr_right fun hk => ?_
  rw [Memory.read?_window, if_pos (by omega)]

/-- An engine read of a region answers exactly when every byte of the range has been written (R74). -/
theorem State.load_isSome (s : State) (r : Region) (i n : Nat) :
    (s.load r i n).isSome = true ↔ ∀ k, k < n → (s.mem.read? (r.base + i + k)).isSome = true := by
  rw [load, Memory.readBytes_isSome]
  refine forall_congr' fun k => imp_congr_right fun hk => ?_
  rw [Memory.read?_window, if_pos (by omega)]

/-- An engine write of a region (R74): the written bytes in their range, every other byte as before. -/
theorem State.store_read? (s : State) (r : Region) (i : Nat) (bs : List Byte) (x : Nat) :
    (s.store r i bs).mem.read? x =
      if r.base + i ≤ x ∧ x < r.base + i + bs.length then bs[x - (r.base + i)]? else s.mem.read? x :=
  Memory.read?_write _ _ _ _

/-! ## The canonical form -/

theorem Memory.wf_iff (m : Memory) : m.wf = true ↔ m.Pairwise (fun c d => c.1 < d.1) := by
  induction m with
  | nil => simp [wf]
  | cons c m ih =>
    cases m with
    | nil => simp [wf]
    | cons d m =>
      rw [wf, Bool.and_eq_true, decide_eq_true_eq, ih, List.pairwise_cons (a := c)]
      refine and_congr_left fun h => ⟨fun hcd e he => ?_, fun h' => h' d (by simp)⟩
      rcases List.mem_cons.1 he with rfl | he
      · exact hcd
      · exact Nat.lt_trans hcd ((List.pairwise_cons.1 h).1 e he)

theorem Memory.mem_cells (a : Nat) (bs : List Byte) (c : Host.Cell) :
    c ∈ Memory.cells a bs ↔ ∃ k, bs[k]? = some c.2 ∧ c.1 = a + k := by
  induction bs generalizing a with
  | nil => simp [cells]
  | cons b bs ih =>
    rw [cells, List.mem_cons, ih]
    constructor
    · rintro (rfl | ⟨k, h1, h2⟩)
      · exact ⟨0, by simp⟩
      · exact ⟨k + 1, by simpa using h1, by omega⟩
    · rintro ⟨k, h1, h2⟩
      cases k with
      | zero =>
        refine Or.inl (Prod.ext (by simpa using h2) ?_)
        simpa using h1.symm
      | succ k => exact Or.inr ⟨k, by simpa using h1, by omega⟩

theorem Memory.cells_pairwise (a : Nat) (bs : List Byte) :
    (Memory.cells a bs).Pairwise (fun c d => c.1 < d.1) := by
  induction bs generalizing a with
  | nil => simp [cells]
  | cons b bs ih =>
    rw [cells, List.pairwise_cons]
    refine ⟨fun d hd => ?_, ih (a + 1)⟩
    obtain ⟨k, -, h⟩ := (mem_cells (a + 1) bs d).1 hd
    dsimp only; omega

theorem Memory.mem_cells_lt (a : Nat) (bs : List Byte) (c : Host.Cell) (h : c ∈ Memory.cells a bs) :
    a ≤ c.1 ∧ c.1 < a + bs.length := by
  obtain ⟨k, h1, h2⟩ := (mem_cells a bs c).1 h
  have : k < bs.length := by
    rcases Nat.lt_or_ge k bs.length with h | h
    · exact h
    · rw [List.getElem?_eq_none h] at h1; exact absurd h1 (by simp)
  omega

/-- Every cell after a write is one of before or one of the written bytes at its address. -/
theorem Memory.mem_write (m : Memory) (a : Nat) (bs : List Byte) (c : Host.Cell) (h : c ∈ m.write a bs) :
    c ∈ m ∨ ∃ k, bs[k]? = some c.2 ∧ c.1 = a + k := by
  rw [write, List.mem_append, List.mem_append, List.mem_filter, List.mem_filter, mem_cells] at h
  rcases h with (h | h) | h
  · exact Or.inl h.1
  · exact Or.inr h
  · exact Or.inl h.1

/-- A write keeps the canonical form. -/
theorem Memory.wf_write (m : Memory) (a : Nat) (bs : List Byte) (h : m.wf = true) : (m.write a bs).wf = true := by
  rw [wf_iff] at h ⊢
  rw [write, List.pairwise_append, List.pairwise_append]
  refine ⟨⟨h.filter _, cells_pairwise a bs, fun c hc d hd => ?_⟩, h.filter _, fun c hc d hd => ?_⟩
  · have := (List.mem_filter.1 hc).2
    have := mem_cells_lt a bs d hd
    simp only [decide_eq_true_eq] at *; omega
  · have hd := (List.mem_filter.1 hd).2
    rcases List.mem_append.1 hc with hc | hc
    · have := (List.mem_filter.1 hc).2
      simp only [decide_eq_true_eq] at *; omega
    · have := mem_cells_lt a bs c hc
      simp only [decide_eq_true_eq] at *; omega

/-- A host write of one byte lane keeps the canonical form. -/
theorem Memory.wf_hostWrite (m : Memory) (r : Region) (a : Nat) (b : Byte) (h : m.wf = true) :
    (m.hostWrite r a b).wf = true := by
  rw [hostWrite]; split
  · exact wf_write _ _ _ h
  · exact h

/-- A host write of a word keeps the canonical form. -/
theorem Memory.wf_hostWriteWord (m : Memory) (r : Region) (a : Nat) (w : Word) (strb : BitVec 4)
    (h : m.wf = true) : (m.hostWriteWord r a w strb).wf = true := by
  have key : ∀ (l : List Nat) (m : Memory), m.wf = true →
      (l.foldl (fun m i => if strb.getLsbD i then m.hostWrite r (a + i) (lane w i) else m) m).wf = true := by
    intro l
    induction l with
    | nil => exact fun m h => h
    | cons i l ih =>
      intro m h
      refine ih _ ?_
      dsimp only
      split
      · exact wf_hostWrite _ _ _ _ h
      · exact h
  exact key _ m h

theorem Memory.read?_of_mem (m : Memory) (h : m.wf = true) (c : Host.Cell) (hc : c ∈ m) :
    m.read? c.1 = some c.2 := by
  rw [wf_iff] at h
  induction m with
  | nil => simp at hc
  | cons d m ih =>
    rw [List.pairwise_cons] at h
    rw [read?_cons]
    rcases List.mem_cons.1 hc with rfl | hc
    · simp
    · rw [if_neg (Nat.ne_of_lt (h.1 c hc)), ih h.2 hc]

theorem Memory.mem_of_read? (m : Memory) (a : Nat) (b : Byte) (h : m.read? a = some b) : (a, b) ∈ m := by
  induction m with
  | nil => simp at h
  | cons c m ih =>
    rw [read?_cons] at h
    split at h
    · next hc => subst hc; obtain rfl := Option.some.inj h; simp
    · exact List.mem_cons_of_mem _ (ih h)

/-- The memory after reset is in its canonical form. -/
theorem State.reset_mem_wf : State.reset.mem.wf = true := rfl

end Sys2Proof.Machine
end

