-- ==== Sys2Proof/Laws/State.lean ====
section
/-! SUPPORT. The fields of State after each named update: one lemma per field per update, so that no proof unfolds a record. -/

namespace Sys2Proof.Machine

/-! ## finish -/

@[simp] theorem State.finish_ctrlIE (s : State) :
    s.finish.ctrlIE = s.ctrlIE := rfl
@[simp] theorem State.finish_done (s : State) :
    s.finish.done = true := rfl
@[simp] theorem State.finish_err (s : State) :
    s.finish.err = s.err := rfl
@[simp] theorem State.finish_ovr (s : State) :
    s.finish.ovr = s.ovr := rfl
@[simp] theorem State.finish_errCode (s : State) :
    s.finish.errCode = s.errCode := rfl
@[simp] theorem State.finish_lastCmd (s : State) :
    s.finish.lastCmd = s.lastCmd := rfl
@[simp] theorem State.finish_pending (s : State) :
    s.finish.pending = none := rfl
@[simp] theorem State.finish_version (s : State) :
    s.finish.version = s.version := rfl
@[simp] theorem State.finish_ecl (s : State) :
    s.finish.ecl = s.ecl := rfl
@[simp] theorem State.finish_result (s : State) :
    s.finish.result = s.result := rfl
@[simp] theorem State.finish_mask (s : State) :
    s.finish.mask = s.mask := rfl
@[simp] theorem State.finish_mvalid (s : State) :
    s.finish.mvalid = s.mvalid := rfl
@[simp] theorem State.finish_score (s : State) :
    s.finish.score = s.score := rfl
@[simp] theorem State.finish_scoreR1 (s : State) :
    s.finish.scoreR1 = s.scoreR1 := rfl
@[simp] theorem State.finish_scoreR2 (s : State) :
    s.finish.scoreR2 = s.scoreR2 := rfl
@[simp] theorem State.finish_scoreR3 (s : State) :
    s.finish.scoreR3 = s.scoreR3 := rfl
@[simp] theorem State.finish_scoreR4 (s : State) :
    s.finish.scoreR4 = s.scoreR4 := rfl
@[simp] theorem State.finish_scoreDark (s : State) :
    s.finish.scoreDark = s.scoreDark := rfl
@[simp] theorem State.finish_scoreN (s : State) :
    s.finish.scoreN = s.scoreN := rfl
@[simp] theorem State.finish_scoreM (s : State) :
    s.finish.scoreM = s.scoreM := rfl
@[simp] theorem State.finish_rsSrc (s : State) :
    s.finish.rsSrc = s.rsSrc := rfl
@[simp] theorem State.finish_rsLen (s : State) :
    s.finish.rsLen = s.rsLen := rfl
@[simp] theorem State.finish_rsDst (s : State) :
    s.finish.rsDst = s.rsDst := rfl
@[simp] theorem State.finish_mem (s : State) :
    s.finish.mem = s.mem := rfl
@[simp] theorem State.finish_faulted (s : State) :
    s.finish.faulted = s.faulted := rfl
@[simp] theorem State.finish_rst (s : State) :
    s.finish.rst = s.rst := rfl
@[simp] theorem State.finish_params (s : State) :
    s.finish.params = s.params := rfl
@[simp] theorem State.finish_events (s : State) :
    s.finish.events = s.events := rfl
@[simp] theorem State.finish_responses (s : State) :
    s.finish.responses = s.responses := rfl
@[simp] theorem State.finish_draws (s : State) :
    s.finish.draws = s.draws := rfl

/-! ## recordError -/

@[simp] theorem State.recordError_ctrlIE (s : State) (e : CommandError) :
    (s.recordError e).ctrlIE = s.ctrlIE := rfl
@[simp] theorem State.recordError_done (s : State) (e : CommandError) :
    (s.recordError e).done = s.done := rfl
@[simp] theorem State.recordError_err (s : State) (e : CommandError) :
    (s.recordError e).err = true := rfl
@[simp] theorem State.recordError_ovr (s : State) (e : CommandError) :
    (s.recordError e).ovr = s.ovr := rfl
@[simp] theorem State.recordError_errCode (s : State) (e : CommandError) :
    (s.recordError e).errCode = e.code := rfl
@[simp] theorem State.recordError_lastCmd (s : State) (e : CommandError) :
    (s.recordError e).lastCmd = s.lastCmd := rfl
@[simp] theorem State.recordError_pending (s : State) (e : CommandError) :
    (s.recordError e).pending = s.pending := rfl
@[simp] theorem State.recordError_version (s : State) (e : CommandError) :
    (s.recordError e).version = s.version := rfl
@[simp] theorem State.recordError_ecl (s : State) (e : CommandError) :
    (s.recordError e).ecl = s.ecl := rfl
@[simp] theorem State.recordError_result (s : State) (e : CommandError) :
    (s.recordError e).result = s.result := rfl
@[simp] theorem State.recordError_mask (s : State) (e : CommandError) :
    (s.recordError e).mask = s.mask := rfl
@[simp] theorem State.recordError_mvalid (s : State) (e : CommandError) :
    (s.recordError e).mvalid = s.mvalid := rfl
@[simp] theorem State.recordError_score (s : State) (e : CommandError) :
    (s.recordError e).score = s.score := rfl
@[simp] theorem State.recordError_scoreR1 (s : State) (e : CommandError) :
    (s.recordError e).scoreR1 = s.scoreR1 := rfl
@[simp] theorem State.recordError_scoreR2 (s : State) (e : CommandError) :
    (s.recordError e).scoreR2 = s.scoreR2 := rfl
@[simp] theorem State.recordError_scoreR3 (s : State) (e : CommandError) :
    (s.recordError e).scoreR3 = s.scoreR3 := rfl
@[simp] theorem State.recordError_scoreR4 (s : State) (e : CommandError) :
    (s.recordError e).scoreR4 = s.scoreR4 := rfl
@[simp] theorem State.recordError_scoreDark (s : State) (e : CommandError) :
    (s.recordError e).scoreDark = s.scoreDark := rfl
@[simp] theorem State.recordError_scoreN (s : State) (e : CommandError) :
    (s.recordError e).scoreN = s.scoreN := rfl
@[simp] theorem State.recordError_scoreM (s : State) (e : CommandError) :
    (s.recordError e).scoreM = s.scoreM := rfl
@[simp] theorem State.recordError_rsSrc (s : State) (e : CommandError) :
    (s.recordError e).rsSrc = s.rsSrc := rfl
@[simp] theorem State.recordError_rsLen (s : State) (e : CommandError) :
    (s.recordError e).rsLen = s.rsLen := rfl
@[simp] theorem State.recordError_rsDst (s : State) (e : CommandError) :
    (s.recordError e).rsDst = s.rsDst := rfl
@[simp] theorem State.recordError_mem (s : State) (e : CommandError) :
    (s.recordError e).mem = s.mem := rfl
@[simp] theorem State.recordError_faulted (s : State) (e : CommandError) :
    (s.recordError e).faulted = s.faulted := rfl
@[simp] theorem State.recordError_rst (s : State) (e : CommandError) :
    (s.recordError e).rst = s.rst := rfl
@[simp] theorem State.recordError_params (s : State) (e : CommandError) :
    (s.recordError e).params = s.params := rfl
@[simp] theorem State.recordError_events (s : State) (e : CommandError) :
    (s.recordError e).events = s.events := rfl
@[simp] theorem State.recordError_responses (s : State) (e : CommandError) :
    (s.recordError e).responses = s.responses := rfl
@[simp] theorem State.recordError_draws (s : State) (e : CommandError) :
    (s.recordError e).draws = s.draws := rfl

/-! ## raise -/

@[simp] theorem State.raise_ctrlIE (s : State) (e : CommandError) :
    (s.raise e).ctrlIE = s.ctrlIE := rfl
@[simp] theorem State.raise_done (s : State) (e : CommandError) :
    (s.raise e).done = true := rfl
@[simp] theorem State.raise_err (s : State) (e : CommandError) :
    (s.raise e).err = true := rfl
@[simp] theorem State.raise_ovr (s : State) (e : CommandError) :
    (s.raise e).ovr = s.ovr := rfl
@[simp] theorem State.raise_errCode (s : State) (e : CommandError) :
    (s.raise e).errCode = e.code := rfl
@[simp] theorem State.raise_lastCmd (s : State) (e : CommandError) :
    (s.raise e).lastCmd = s.lastCmd := rfl
@[simp] theorem State.raise_pending (s : State) (e : CommandError) :
    (s.raise e).pending = none := rfl
@[simp] theorem State.raise_version (s : State) (e : CommandError) :
    (s.raise e).version = s.version := rfl
@[simp] theorem State.raise_ecl (s : State) (e : CommandError) :
    (s.raise e).ecl = s.ecl := rfl
@[simp] theorem State.raise_result (s : State) (e : CommandError) :
    (s.raise e).result = s.result := rfl
@[simp] theorem State.raise_mask (s : State) (e : CommandError) :
    (s.raise e).mask = s.mask := rfl
@[simp] theorem State.raise_mvalid (s : State) (e : CommandError) :
    (s.raise e).mvalid = s.mvalid := rfl
@[simp] theorem State.raise_score (s : State) (e : CommandError) :
    (s.raise e).score = s.score := rfl
@[simp] theorem State.raise_scoreR1 (s : State) (e : CommandError) :
    (s.raise e).scoreR1 = s.scoreR1 := rfl
@[simp] theorem State.raise_scoreR2 (s : State) (e : CommandError) :
    (s.raise e).scoreR2 = s.scoreR2 := rfl
@[simp] theorem State.raise_scoreR3 (s : State) (e : CommandError) :
    (s.raise e).scoreR3 = s.scoreR3 := rfl
@[simp] theorem State.raise_scoreR4 (s : State) (e : CommandError) :
    (s.raise e).scoreR4 = s.scoreR4 := rfl
@[simp] theorem State.raise_scoreDark (s : State) (e : CommandError) :
    (s.raise e).scoreDark = s.scoreDark := rfl
@[simp] theorem State.raise_scoreN (s : State) (e : CommandError) :
    (s.raise e).scoreN = s.scoreN := rfl
@[simp] theorem State.raise_scoreM (s : State) (e : CommandError) :
    (s.raise e).scoreM = s.scoreM := rfl
@[simp] theorem State.raise_rsSrc (s : State) (e : CommandError) :
    (s.raise e).rsSrc = s.rsSrc := rfl
@[simp] theorem State.raise_rsLen (s : State) (e : CommandError) :
    (s.raise e).rsLen = s.rsLen := rfl
@[simp] theorem State.raise_rsDst (s : State) (e : CommandError) :
    (s.raise e).rsDst = s.rsDst := rfl
@[simp] theorem State.raise_mem (s : State) (e : CommandError) :
    (s.raise e).mem = s.mem := rfl
@[simp] theorem State.raise_faulted (s : State) (e : CommandError) :
    (s.raise e).faulted = s.faulted := rfl
@[simp] theorem State.raise_rst (s : State) (e : CommandError) :
    (s.raise e).rst = s.rst := rfl
@[simp] theorem State.raise_params (s : State) (e : CommandError) :
    (s.raise e).params = s.params := rfl
@[simp] theorem State.raise_events (s : State) (e : CommandError) :
    (s.raise e).events = s.events := rfl
@[simp] theorem State.raise_responses (s : State) (e : CommandError) :
    (s.raise e).responses = s.responses := rfl
@[simp] theorem State.raise_draws (s : State) (e : CommandError) :
    (s.raise e).draws = s.draws := rfl

/-! ## setResult -/

@[simp] theorem State.setResult_ctrlIE (s : State) (b : Byte) :
    (s.setResult b).ctrlIE = s.ctrlIE := rfl
@[simp] theorem State.setResult_done (s : State) (b : Byte) :
    (s.setResult b).done = s.done := rfl
@[simp] theorem State.setResult_err (s : State) (b : Byte) :
    (s.setResult b).err = s.err := rfl
@[simp] theorem State.setResult_ovr (s : State) (b : Byte) :
    (s.setResult b).ovr = s.ovr := rfl
@[simp] theorem State.setResult_errCode (s : State) (b : Byte) :
    (s.setResult b).errCode = s.errCode := rfl
@[simp] theorem State.setResult_lastCmd (s : State) (b : Byte) :
    (s.setResult b).lastCmd = s.lastCmd := rfl
@[simp] theorem State.setResult_pending (s : State) (b : Byte) :
    (s.setResult b).pending = s.pending := rfl
@[simp] theorem State.setResult_version (s : State) (b : Byte) :
    (s.setResult b).version = s.version := rfl
@[simp] theorem State.setResult_ecl (s : State) (b : Byte) :
    (s.setResult b).ecl = s.ecl := rfl
@[simp] theorem State.setResult_result (s : State) (b : Byte) :
    (s.setResult b).result = b := rfl
@[simp] theorem State.setResult_mask (s : State) (b : Byte) :
    (s.setResult b).mask = s.mask := rfl
@[simp] theorem State.setResult_mvalid (s : State) (b : Byte) :
    (s.setResult b).mvalid = s.mvalid := rfl
@[simp] theorem State.setResult_score (s : State) (b : Byte) :
    (s.setResult b).score = s.score := rfl
@[simp] theorem State.setResult_scoreR1 (s : State) (b : Byte) :
    (s.setResult b).scoreR1 = s.scoreR1 := rfl
@[simp] theorem State.setResult_scoreR2 (s : State) (b : Byte) :
    (s.setResult b).scoreR2 = s.scoreR2 := rfl
@[simp] theorem State.setResult_scoreR3 (s : State) (b : Byte) :
    (s.setResult b).scoreR3 = s.scoreR3 := rfl
@[simp] theorem State.setResult_scoreR4 (s : State) (b : Byte) :
    (s.setResult b).scoreR4 = s.scoreR4 := rfl
@[simp] theorem State.setResult_scoreDark (s : State) (b : Byte) :
    (s.setResult b).scoreDark = s.scoreDark := rfl
@[simp] theorem State.setResult_scoreN (s : State) (b : Byte) :
    (s.setResult b).scoreN = s.scoreN := rfl
@[simp] theorem State.setResult_scoreM (s : State) (b : Byte) :
    (s.setResult b).scoreM = s.scoreM := rfl
@[simp] theorem State.setResult_rsSrc (s : State) (b : Byte) :
    (s.setResult b).rsSrc = s.rsSrc := rfl
@[simp] theorem State.setResult_rsLen (s : State) (b : Byte) :
    (s.setResult b).rsLen = s.rsLen := rfl
@[simp] theorem State.setResult_rsDst (s : State) (b : Byte) :
    (s.setResult b).rsDst = s.rsDst := rfl
@[simp] theorem State.setResult_mem (s : State) (b : Byte) :
    (s.setResult b).mem = s.mem := rfl
@[simp] theorem State.setResult_faulted (s : State) (b : Byte) :
    (s.setResult b).faulted = s.faulted := rfl
@[simp] theorem State.setResult_rst (s : State) (b : Byte) :
    (s.setResult b).rst = s.rst := rfl
@[simp] theorem State.setResult_params (s : State) (b : Byte) :
    (s.setResult b).params = s.params := rfl
@[simp] theorem State.setResult_events (s : State) (b : Byte) :
    (s.setResult b).events = s.events := rfl
@[simp] theorem State.setResult_responses (s : State) (b : Byte) :
    (s.setResult b).responses = s.responses := rfl
@[simp] theorem State.setResult_draws (s : State) (b : Byte) :
    (s.setResult b).draws = s.draws := rfl

/-! ## setMask -/

@[simp] theorem State.setMask_ctrlIE (s : State) (m : MaskId) :
    (s.setMask m).ctrlIE = s.ctrlIE := rfl
@[simp] theorem State.setMask_done (s : State) (m : MaskId) :
    (s.setMask m).done = s.done := rfl
@[simp] theorem State.setMask_err (s : State) (m : MaskId) :
    (s.setMask m).err = s.err := rfl
@[simp] theorem State.setMask_ovr (s : State) (m : MaskId) :
    (s.setMask m).ovr = s.ovr := rfl
@[simp] theorem State.setMask_errCode (s : State) (m : MaskId) :
    (s.setMask m).errCode = s.errCode := rfl
@[simp] theorem State.setMask_lastCmd (s : State) (m : MaskId) :
    (s.setMask m).lastCmd = s.lastCmd := rfl
@[simp] theorem State.setMask_pending (s : State) (m : MaskId) :
    (s.setMask m).pending = s.pending := rfl
@[simp] theorem State.setMask_version (s : State) (m : MaskId) :
    (s.setMask m).version = s.version := rfl
@[simp] theorem State.setMask_ecl (s : State) (m : MaskId) :
    (s.setMask m).ecl = s.ecl := rfl
@[simp] theorem State.setMask_result (s : State) (m : MaskId) :
    (s.setMask m).result = s.result := rfl
@[simp] theorem State.setMask_mask (s : State) (m : MaskId) :
    (s.setMask m).mask = BitVec.ofNat 3 m.val := rfl
@[simp] theorem State.setMask_mvalid (s : State) (m : MaskId) :
    (s.setMask m).mvalid = true := rfl
@[simp] theorem State.setMask_score (s : State) (m : MaskId) :
    (s.setMask m).score = s.score := rfl
@[simp] theorem State.setMask_scoreR1 (s : State) (m : MaskId) :
    (s.setMask m).scoreR1 = s.scoreR1 := rfl
@[simp] theorem State.setMask_scoreR2 (s : State) (m : MaskId) :
    (s.setMask m).scoreR2 = s.scoreR2 := rfl
@[simp] theorem State.setMask_scoreR3 (s : State) (m : MaskId) :
    (s.setMask m).scoreR3 = s.scoreR3 := rfl
@[simp] theorem State.setMask_scoreR4 (s : State) (m : MaskId) :
    (s.setMask m).scoreR4 = s.scoreR4 := rfl
@[simp] theorem State.setMask_scoreDark (s : State) (m : MaskId) :
    (s.setMask m).scoreDark = s.scoreDark := rfl
@[simp] theorem State.setMask_scoreN (s : State) (m : MaskId) :
    (s.setMask m).scoreN = s.scoreN := rfl
@[simp] theorem State.setMask_scoreM (s : State) (m : MaskId) :
    (s.setMask m).scoreM = s.scoreM := rfl
@[simp] theorem State.setMask_rsSrc (s : State) (m : MaskId) :
    (s.setMask m).rsSrc = s.rsSrc := rfl
@[simp] theorem State.setMask_rsLen (s : State) (m : MaskId) :
    (s.setMask m).rsLen = s.rsLen := rfl
@[simp] theorem State.setMask_rsDst (s : State) (m : MaskId) :
    (s.setMask m).rsDst = s.rsDst := rfl
@[simp] theorem State.setMask_mem (s : State) (m : MaskId) :
    (s.setMask m).mem = s.mem := rfl
@[simp] theorem State.setMask_faulted (s : State) (m : MaskId) :
    (s.setMask m).faulted = s.faulted := rfl
@[simp] theorem State.setMask_rst (s : State) (m : MaskId) :
    (s.setMask m).rst = s.rst := rfl
@[simp] theorem State.setMask_params (s : State) (m : MaskId) :
    (s.setMask m).params = s.params := rfl
@[simp] theorem State.setMask_events (s : State) (m : MaskId) :
    (s.setMask m).events = s.events := rfl
@[simp] theorem State.setMask_responses (s : State) (m : MaskId) :
    (s.setMask m).responses = s.responses := rfl
@[simp] theorem State.setMask_draws (s : State) (m : MaskId) :
    (s.setMask m).draws = s.draws := rfl

/-! ## store -/

@[simp] theorem State.store_ctrlIE (s : State) (r : Region) (i : Nat) (bs : List Byte) :
    (s.store r i bs).ctrlIE = s.ctrlIE := rfl
@[simp] theorem State.store_done (s : State) (r : Region) (i : Nat) (bs : List Byte) :
    (s.store r i bs).done = s.done := rfl
@[simp] theorem State.store_err (s : State) (r : Region) (i : Nat) (bs : List Byte) :
    (s.store r i bs).err = s.err := rfl
@[simp] theorem State.store_ovr (s : State) (r : Region) (i : Nat) (bs : List Byte) :
    (s.store r i bs).ovr = s.ovr := rfl
@[simp] theorem State.store_errCode (s : State) (r : Region) (i : Nat) (bs : List Byte) :
    (s.store r i bs).errCode = s.errCode := rfl
@[simp] theorem State.store_lastCmd (s : State) (r : Region) (i : Nat) (bs : List Byte) :
    (s.store r i bs).lastCmd = s.lastCmd := rfl
@[simp] theorem State.store_pending (s : State) (r : Region) (i : Nat) (bs : List Byte) :
    (s.store r i bs).pending = s.pending := rfl
@[simp] theorem State.store_version (s : State) (r : Region) (i : Nat) (bs : List Byte) :
    (s.store r i bs).version = s.version := rfl
@[simp] theorem State.store_ecl (s : State) (r : Region) (i : Nat) (bs : List Byte) :
    (s.store r i bs).ecl = s.ecl := rfl
@[simp] theorem State.store_result (s : State) (r : Region) (i : Nat) (bs : List Byte) :
    (s.store r i bs).result = s.result := rfl
@[simp] theorem State.store_mask (s : State) (r : Region) (i : Nat) (bs : List Byte) :
    (s.store r i bs).mask = s.mask := rfl
@[simp] theorem State.store_mvalid (s : State) (r : Region) (i : Nat) (bs : List Byte) :
    (s.store r i bs).mvalid = s.mvalid := rfl
@[simp] theorem State.store_score (s : State) (r : Region) (i : Nat) (bs : List Byte) :
    (s.store r i bs).score = s.score := rfl
@[simp] theorem State.store_scoreR1 (s : State) (r : Region) (i : Nat) (bs : List Byte) :
    (s.store r i bs).scoreR1 = s.scoreR1 := rfl
@[simp] theorem State.store_scoreR2 (s : State) (r : Region) (i : Nat) (bs : List Byte) :
    (s.store r i bs).scoreR2 = s.scoreR2 := rfl
@[simp] theorem State.store_scoreR3 (s : State) (r : Region) (i : Nat) (bs : List Byte) :
    (s.store r i bs).scoreR3 = s.scoreR3 := rfl
@[simp] theorem State.store_scoreR4 (s : State) (r : Region) (i : Nat) (bs : List Byte) :
    (s.store r i bs).scoreR4 = s.scoreR4 := rfl
@[simp] theorem State.store_scoreDark (s : State) (r : Region) (i : Nat) (bs : List Byte) :
    (s.store r i bs).scoreDark = s.scoreDark := rfl
@[simp] theorem State.store_scoreN (s : State) (r : Region) (i : Nat) (bs : List Byte) :
    (s.store r i bs).scoreN = s.scoreN := rfl
@[simp] theorem State.store_scoreM (s : State) (r : Region) (i : Nat) (bs : List Byte) :
    (s.store r i bs).scoreM = s.scoreM := rfl
@[simp] theorem State.store_rsSrc (s : State) (r : Region) (i : Nat) (bs : List Byte) :
    (s.store r i bs).rsSrc = s.rsSrc := rfl
@[simp] theorem State.store_rsLen (s : State) (r : Region) (i : Nat) (bs : List Byte) :
    (s.store r i bs).rsLen = s.rsLen := rfl
@[simp] theorem State.store_rsDst (s : State) (r : Region) (i : Nat) (bs : List Byte) :
    (s.store r i bs).rsDst = s.rsDst := rfl
@[simp] theorem State.store_mem (s : State) (r : Region) (i : Nat) (bs : List Byte) :
    (s.store r i bs).mem = s.mem.write (r.base + i) bs := rfl
@[simp] theorem State.store_faulted (s : State) (r : Region) (i : Nat) (bs : List Byte) :
    (s.store r i bs).faulted = s.faulted := rfl
@[simp] theorem State.store_rst (s : State) (r : Region) (i : Nat) (bs : List Byte) :
    (s.store r i bs).rst = s.rst := rfl
@[simp] theorem State.store_params (s : State) (r : Region) (i : Nat) (bs : List Byte) :
    (s.store r i bs).params = s.params := rfl
@[simp] theorem State.store_events (s : State) (r : Region) (i : Nat) (bs : List Byte) :
    (s.store r i bs).events = s.events := rfl
@[simp] theorem State.store_responses (s : State) (r : Region) (i : Nat) (bs : List Byte) :
    (s.store r i bs).responses = s.responses := rfl
@[simp] theorem State.store_draws (s : State) (r : Region) (i : Nat) (bs : List Byte) :
    (s.store r i bs).draws = s.draws := rfl

/-! ## storeGrid -/

@[simp] theorem State.storeGrid_ctrlIE (s : State) (v : Nat) (rows : List (List Module)) :
    (s.storeGrid v rows).ctrlIE = s.ctrlIE := rfl
@[simp] theorem State.storeGrid_done (s : State) (v : Nat) (rows : List (List Module)) :
    (s.storeGrid v rows).done = s.done := rfl
@[simp] theorem State.storeGrid_err (s : State) (v : Nat) (rows : List (List Module)) :
    (s.storeGrid v rows).err = s.err := rfl
@[simp] theorem State.storeGrid_ovr (s : State) (v : Nat) (rows : List (List Module)) :
    (s.storeGrid v rows).ovr = s.ovr := rfl
@[simp] theorem State.storeGrid_errCode (s : State) (v : Nat) (rows : List (List Module)) :
    (s.storeGrid v rows).errCode = s.errCode := rfl
@[simp] theorem State.storeGrid_lastCmd (s : State) (v : Nat) (rows : List (List Module)) :
    (s.storeGrid v rows).lastCmd = s.lastCmd := rfl
@[simp] theorem State.storeGrid_pending (s : State) (v : Nat) (rows : List (List Module)) :
    (s.storeGrid v rows).pending = s.pending := rfl
@[simp] theorem State.storeGrid_version (s : State) (v : Nat) (rows : List (List Module)) :
    (s.storeGrid v rows).version = s.version := rfl
@[simp] theorem State.storeGrid_ecl (s : State) (v : Nat) (rows : List (List Module)) :
    (s.storeGrid v rows).ecl = s.ecl := rfl
@[simp] theorem State.storeGrid_result (s : State) (v : Nat) (rows : List (List Module)) :
    (s.storeGrid v rows).result = s.result := rfl
@[simp] theorem State.storeGrid_mask (s : State) (v : Nat) (rows : List (List Module)) :
    (s.storeGrid v rows).mask = s.mask := rfl
@[simp] theorem State.storeGrid_mvalid (s : State) (v : Nat) (rows : List (List Module)) :
    (s.storeGrid v rows).mvalid = s.mvalid := rfl
@[simp] theorem State.storeGrid_score (s : State) (v : Nat) (rows : List (List Module)) :
    (s.storeGrid v rows).score = s.score := rfl
@[simp] theorem State.storeGrid_scoreR1 (s : State) (v : Nat) (rows : List (List Module)) :
    (s.storeGrid v rows).scoreR1 = s.scoreR1 := rfl
@[simp] theorem State.storeGrid_scoreR2 (s : State) (v : Nat) (rows : List (List Module)) :
    (s.storeGrid v rows).scoreR2 = s.scoreR2 := rfl
@[simp] theorem State.storeGrid_scoreR3 (s : State) (v : Nat) (rows : List (List Module)) :
    (s.storeGrid v rows).scoreR3 = s.scoreR3 := rfl
@[simp] theorem State.storeGrid_scoreR4 (s : State) (v : Nat) (rows : List (List Module)) :
    (s.storeGrid v rows).scoreR4 = s.scoreR4 := rfl
@[simp] theorem State.storeGrid_scoreDark (s : State) (v : Nat) (rows : List (List Module)) :
    (s.storeGrid v rows).scoreDark = s.scoreDark := rfl
@[simp] theorem State.storeGrid_scoreN (s : State) (v : Nat) (rows : List (List Module)) :
    (s.storeGrid v rows).scoreN = s.scoreN := rfl
@[simp] theorem State.storeGrid_scoreM (s : State) (v : Nat) (rows : List (List Module)) :
    (s.storeGrid v rows).scoreM = s.scoreM := rfl
@[simp] theorem State.storeGrid_rsSrc (s : State) (v : Nat) (rows : List (List Module)) :
    (s.storeGrid v rows).rsSrc = s.rsSrc := rfl
@[simp] theorem State.storeGrid_rsLen (s : State) (v : Nat) (rows : List (List Module)) :
    (s.storeGrid v rows).rsLen = s.rsLen := rfl
@[simp] theorem State.storeGrid_rsDst (s : State) (v : Nat) (rows : List (List Module)) :
    (s.storeGrid v rows).rsDst = s.rsDst := rfl
@[simp] theorem State.storeGrid_mem (s : State) (v : Nat) (rows : List (List Module)) :
    (s.storeGrid v rows).mem = s.mem.write Region.grid.base (frameBytes s.params (side v) rows) := rfl
@[simp] theorem State.storeGrid_faulted (s : State) (v : Nat) (rows : List (List Module)) :
    (s.storeGrid v rows).faulted = s.faulted := rfl
@[simp] theorem State.storeGrid_rst (s : State) (v : Nat) (rows : List (List Module)) :
    (s.storeGrid v rows).rst = s.rst := rfl
@[simp] theorem State.storeGrid_params (s : State) (v : Nat) (rows : List (List Module)) :
    (s.storeGrid v rows).params = s.params := rfl
@[simp] theorem State.storeGrid_events (s : State) (v : Nat) (rows : List (List Module)) :
    (s.storeGrid v rows).events = s.events := rfl
@[simp] theorem State.storeGrid_responses (s : State) (v : Nat) (rows : List (List Module)) :
    (s.storeGrid v rows).responses = s.responses := rfl
@[simp] theorem State.storeGrid_draws (s : State) (v : Nat) (rows : List (List Module)) :
    (s.storeGrid v rows).draws = s.draws := rfl

/-! ## setScore -/

@[simp] theorem State.setScore_ctrlIE (s : State) (p : Penalty) :
    (s.setScore p).ctrlIE = s.ctrlIE := rfl
@[simp] theorem State.setScore_done (s : State) (p : Penalty) :
    (s.setScore p).done = s.done := rfl
@[simp] theorem State.setScore_err (s : State) (p : Penalty) :
    (s.setScore p).err = s.err := rfl
@[simp] theorem State.setScore_ovr (s : State) (p : Penalty) :
    (s.setScore p).ovr = s.ovr := rfl
@[simp] theorem State.setScore_errCode (s : State) (p : Penalty) :
    (s.setScore p).errCode = s.errCode := rfl
@[simp] theorem State.setScore_lastCmd (s : State) (p : Penalty) :
    (s.setScore p).lastCmd = s.lastCmd := rfl
@[simp] theorem State.setScore_pending (s : State) (p : Penalty) :
    (s.setScore p).pending = s.pending := rfl
@[simp] theorem State.setScore_version (s : State) (p : Penalty) :
    (s.setScore p).version = s.version := rfl
@[simp] theorem State.setScore_ecl (s : State) (p : Penalty) :
    (s.setScore p).ecl = s.ecl := rfl
@[simp] theorem State.setScore_result (s : State) (p : Penalty) :
    (s.setScore p).result = s.result := rfl
@[simp] theorem State.setScore_mask (s : State) (p : Penalty) :
    (s.setScore p).mask = s.mask := rfl
@[simp] theorem State.setScore_mvalid (s : State) (p : Penalty) :
    (s.setScore p).mvalid = s.mvalid := rfl
@[simp] theorem State.setScore_score (s : State) (p : Penalty) :
    (s.setScore p).score = BitVec.ofInt 32 p.total := rfl
@[simp] theorem State.setScore_scoreR1 (s : State) (p : Penalty) :
    (s.setScore p).scoreR1 = BitVec.ofNat 32 p.p1 := rfl
@[simp] theorem State.setScore_scoreR2 (s : State) (p : Penalty) :
    (s.setScore p).scoreR2 = BitVec.ofNat 32 p.p2 := rfl
@[simp] theorem State.setScore_scoreR3 (s : State) (p : Penalty) :
    (s.setScore p).scoreR3 = BitVec.ofNat 32 p.p3 := rfl
@[simp] theorem State.setScore_scoreR4 (s : State) (p : Penalty) :
    (s.setScore p).scoreR4 = BitVec.ofInt 32 p.p4 := rfl
@[simp] theorem State.setScore_scoreDark (s : State) (p : Penalty) :
    (s.setScore p).scoreDark = BitVec.ofNat 16 p.dark := rfl
@[simp] theorem State.setScore_scoreN (s : State) (p : Penalty) :
    (s.setScore p).scoreN = BitVec.ofNat 16 p.size := rfl
@[simp] theorem State.setScore_scoreM (s : State) (p : Penalty) :
    (s.setScore p).scoreM = s.scoreM := rfl
@[simp] theorem State.setScore_rsSrc (s : State) (p : Penalty) :
    (s.setScore p).rsSrc = s.rsSrc := rfl
@[simp] theorem State.setScore_rsLen (s : State) (p : Penalty) :
    (s.setScore p).rsLen = s.rsLen := rfl
@[simp] theorem State.setScore_rsDst (s : State) (p : Penalty) :
    (s.setScore p).rsDst = s.rsDst := rfl
@[simp] theorem State.setScore_mem (s : State) (p : Penalty) :
    (s.setScore p).mem = s.mem := rfl
@[simp] theorem State.setScore_faulted (s : State) (p : Penalty) :
    (s.setScore p).faulted = s.faulted := rfl
@[simp] theorem State.setScore_rst (s : State) (p : Penalty) :
    (s.setScore p).rst = s.rst := rfl
@[simp] theorem State.setScore_params (s : State) (p : Penalty) :
    (s.setScore p).params = s.params := rfl
@[simp] theorem State.setScore_events (s : State) (p : Penalty) :
    (s.setScore p).events = s.events := rfl
@[simp] theorem State.setScore_responses (s : State) (p : Penalty) :
    (s.setScore p).responses = s.responses := rfl
@[simp] theorem State.setScore_draws (s : State) (p : Penalty) :
    (s.setScore p).draws = s.draws := rfl

/-! ## accept -/

@[simp] theorem State.accept_ctrlIE (s : State) (w : Word) :
    (s.accept w).ctrlIE = s.ctrlIE := rfl
@[simp] theorem State.accept_done (s : State) (w : Word) :
    (s.accept w).done = false := rfl
@[simp] theorem State.accept_err (s : State) (w : Word) :
    (s.accept w).err = false := rfl
@[simp] theorem State.accept_ovr (s : State) (w : Word) :
    (s.accept w).ovr = s.ovr := rfl
@[simp] theorem State.accept_errCode (s : State) (w : Word) :
    (s.accept w).errCode = 0 := rfl
@[simp] theorem State.accept_lastCmd (s : State) (w : Word) :
    (s.accept w).lastCmd = w := rfl
@[simp] theorem State.accept_pending (s : State) (w : Word) :
    (s.accept w).pending = some w := rfl
@[simp] theorem State.accept_version (s : State) (w : Word) :
    (s.accept w).version = s.version := rfl
@[simp] theorem State.accept_ecl (s : State) (w : Word) :
    (s.accept w).ecl = s.ecl := rfl
@[simp] theorem State.accept_result (s : State) (w : Word) :
    (s.accept w).result = s.result := rfl
@[simp] theorem State.accept_mask (s : State) (w : Word) :
    (s.accept w).mask = s.mask := rfl
@[simp] theorem State.accept_mvalid (s : State) (w : Word) :
    (s.accept w).mvalid = s.mvalid := rfl
@[simp] theorem State.accept_score (s : State) (w : Word) :
    (s.accept w).score = s.score := rfl
@[simp] theorem State.accept_scoreR1 (s : State) (w : Word) :
    (s.accept w).scoreR1 = s.scoreR1 := rfl
@[simp] theorem State.accept_scoreR2 (s : State) (w : Word) :
    (s.accept w).scoreR2 = s.scoreR2 := rfl
@[simp] theorem State.accept_scoreR3 (s : State) (w : Word) :
    (s.accept w).scoreR3 = s.scoreR3 := rfl
@[simp] theorem State.accept_scoreR4 (s : State) (w : Word) :
    (s.accept w).scoreR4 = s.scoreR4 := rfl
@[simp] theorem State.accept_scoreDark (s : State) (w : Word) :
    (s.accept w).scoreDark = s.scoreDark := rfl
@[simp] theorem State.accept_scoreN (s : State) (w : Word) :
    (s.accept w).scoreN = s.scoreN := rfl
@[simp] theorem State.accept_scoreM (s : State) (w : Word) :
    (s.accept w).scoreM = s.scoreM := rfl
@[simp] theorem State.accept_rsSrc (s : State) (w : Word) :
    (s.accept w).rsSrc = s.rsSrc := rfl
@[simp] theorem State.accept_rsLen (s : State) (w : Word) :
    (s.accept w).rsLen = s.rsLen := rfl
@[simp] theorem State.accept_rsDst (s : State) (w : Word) :
    (s.accept w).rsDst = s.rsDst := rfl
@[simp] theorem State.accept_mem (s : State) (w : Word) :
    (s.accept w).mem = s.mem := rfl
@[simp] theorem State.accept_faulted (s : State) (w : Word) :
    (s.accept w).faulted = s.faulted := rfl
@[simp] theorem State.accept_rst (s : State) (w : Word) :
    (s.accept w).rst = s.rst := rfl
@[simp] theorem State.accept_params (s : State) (w : Word) :
    (s.accept w).params = s.params := rfl
@[simp] theorem State.accept_events (s : State) (w : Word) :
    (s.accept w).events = s.events := rfl
@[simp] theorem State.accept_responses (s : State) (w : Word) :
    (s.accept w).responses = s.responses := rfl
@[simp] theorem State.accept_draws (s : State) (w : Word) :
    (s.accept w).draws = s.draws := rfl

/-! ## issue -/

@[simp] theorem State.issue_ctrlIE (s : State) (w : Word) :
    (s.issue w).ctrlIE = s.ctrlIE := rfl
@[simp] theorem State.issue_done (s : State) (w : Word) :
    (s.issue w).done = false := rfl
@[simp] theorem State.issue_err (s : State) (w : Word) :
    (s.issue w).err = false := rfl
@[simp] theorem State.issue_ovr (s : State) (w : Word) :
    (s.issue w).ovr = s.ovr := rfl
@[simp] theorem State.issue_errCode (s : State) (w : Word) :
    (s.issue w).errCode = 0 := rfl
@[simp] theorem State.issue_lastCmd (s : State) (w : Word) :
    (s.issue w).lastCmd = w := rfl
@[simp] theorem State.issue_pending (s : State) (w : Word) :
    (s.issue w).pending = some w := rfl
@[simp] theorem State.issue_version (s : State) (w : Word) :
    (s.issue w).version = s.version := rfl
@[simp] theorem State.issue_ecl (s : State) (w : Word) :
    (s.issue w).ecl = s.ecl := rfl
@[simp] theorem State.issue_result (s : State) (w : Word) :
    (s.issue w).result = s.result := rfl
@[simp] theorem State.issue_mask (s : State) (w : Word) :
    (s.issue w).mask = s.mask := rfl
@[simp] theorem State.issue_mvalid (s : State) (w : Word) :
    (s.issue w).mvalid = s.mvalid := rfl
@[simp] theorem State.issue_score (s : State) (w : Word) :
    (s.issue w).score = s.score := rfl
@[simp] theorem State.issue_scoreR1 (s : State) (w : Word) :
    (s.issue w).scoreR1 = s.scoreR1 := rfl
@[simp] theorem State.issue_scoreR2 (s : State) (w : Word) :
    (s.issue w).scoreR2 = s.scoreR2 := rfl
@[simp] theorem State.issue_scoreR3 (s : State) (w : Word) :
    (s.issue w).scoreR3 = s.scoreR3 := rfl
@[simp] theorem State.issue_scoreR4 (s : State) (w : Word) :
    (s.issue w).scoreR4 = s.scoreR4 := rfl
@[simp] theorem State.issue_scoreDark (s : State) (w : Word) :
    (s.issue w).scoreDark = s.scoreDark := rfl
@[simp] theorem State.issue_scoreN (s : State) (w : Word) :
    (s.issue w).scoreN = s.scoreN := rfl
@[simp] theorem State.issue_scoreM (s : State) (w : Word) :
    (s.issue w).scoreM = s.scoreM := rfl
@[simp] theorem State.issue_rsSrc (s : State) (w : Word) :
    (s.issue w).rsSrc = s.rsSrc := rfl
@[simp] theorem State.issue_rsLen (s : State) (w : Word) :
    (s.issue w).rsLen = s.rsLen := rfl
@[simp] theorem State.issue_rsDst (s : State) (w : Word) :
    (s.issue w).rsDst = s.rsDst := rfl
@[simp] theorem State.issue_mem (s : State) (w : Word) :
    (s.issue w).mem = s.mem := rfl
@[simp] theorem State.issue_faulted (s : State) (w : Word) :
    (s.issue w).faulted = s.faulted := rfl
@[simp] theorem State.issue_rst (s : State) (w : Word) :
    (s.issue w).rst = s.rst := rfl
@[simp] theorem State.issue_params (s : State) (w : Word) :
    (s.issue w).params = s.params := rfl
@[simp] theorem State.issue_events (s : State) (w : Word) :
    (s.issue w).events = .engine :: s.events := rfl
@[simp] theorem State.issue_responses (s : State) (w : Word) :
    (s.issue w).responses = s.responses := rfl
@[simp] theorem State.issue_draws (s : State) (w : Word) :
    (s.issue w).draws = s.draws := rfl

/-! ## clearStatus -/

@[simp] theorem State.clearStatus_ctrlIE (s : State) (w : Word) :
    (s.clearStatus w).ctrlIE = s.ctrlIE := rfl
@[simp] theorem State.clearStatus_done (s : State) (w : Word) :
    (s.clearStatus w).done = (s.done && !w.getLsbD 1) := rfl
@[simp] theorem State.clearStatus_err (s : State) (w : Word) :
    (s.clearStatus w).err = (s.err && !w.getLsbD 2) := rfl
@[simp] theorem State.clearStatus_ovr (s : State) (w : Word) :
    (s.clearStatus w).ovr = (s.ovr && !w.getLsbD 3) := rfl
@[simp] theorem State.clearStatus_errCode (s : State) (w : Word) :
    (s.clearStatus w).errCode = (if w.getLsbD 2 then 0 else s.errCode) := rfl
@[simp] theorem State.clearStatus_lastCmd (s : State) (w : Word) :
    (s.clearStatus w).lastCmd = s.lastCmd := rfl
@[simp] theorem State.clearStatus_pending (s : State) (w : Word) :
    (s.clearStatus w).pending = s.pending := rfl
@[simp] theorem State.clearStatus_version (s : State) (w : Word) :
    (s.clearStatus w).version = s.version := rfl
@[simp] theorem State.clearStatus_ecl (s : State) (w : Word) :
    (s.clearStatus w).ecl = s.ecl := rfl
@[simp] theorem State.clearStatus_result (s : State) (w : Word) :
    (s.clearStatus w).result = s.result := rfl
@[simp] theorem State.clearStatus_mask (s : State) (w : Word) :
    (s.clearStatus w).mask = s.mask := rfl
@[simp] theorem State.clearStatus_mvalid (s : State) (w : Word) :
    (s.clearStatus w).mvalid = s.mvalid := rfl
@[simp] theorem State.clearStatus_score (s : State) (w : Word) :
    (s.clearStatus w).score = s.score := rfl
@[simp] theorem State.clearStatus_scoreR1 (s : State) (w : Word) :
    (s.clearStatus w).scoreR1 = s.scoreR1 := rfl
@[simp] theorem State.clearStatus_scoreR2 (s : State) (w : Word) :
    (s.clearStatus w).scoreR2 = s.scoreR2 := rfl
@[simp] theorem State.clearStatus_scoreR3 (s : State) (w : Word) :
    (s.clearStatus w).scoreR3 = s.scoreR3 := rfl
@[simp] theorem State.clearStatus_scoreR4 (s : State) (w : Word) :
    (s.clearStatus w).scoreR4 = s.scoreR4 := rfl
@[simp] theorem State.clearStatus_scoreDark (s : State) (w : Word) :
    (s.clearStatus w).scoreDark = s.scoreDark := rfl
@[simp] theorem State.clearStatus_scoreN (s : State) (w : Word) :
    (s.clearStatus w).scoreN = s.scoreN := rfl
@[simp] theorem State.clearStatus_scoreM (s : State) (w : Word) :
    (s.clearStatus w).scoreM = s.scoreM := rfl
@[simp] theorem State.clearStatus_rsSrc (s : State) (w : Word) :
    (s.clearStatus w).rsSrc = s.rsSrc := rfl
@[simp] theorem State.clearStatus_rsLen (s : State) (w : Word) :
    (s.clearStatus w).rsLen = s.rsLen := rfl
@[simp] theorem State.clearStatus_rsDst (s : State) (w : Word) :
    (s.clearStatus w).rsDst = s.rsDst := rfl
@[simp] theorem State.clearStatus_mem (s : State) (w : Word) :
    (s.clearStatus w).mem = s.mem := rfl
@[simp] theorem State.clearStatus_faulted (s : State) (w : Word) :
    (s.clearStatus w).faulted = s.faulted := rfl
@[simp] theorem State.clearStatus_rst (s : State) (w : Word) :
    (s.clearStatus w).rst = s.rst := rfl
@[simp] theorem State.clearStatus_params (s : State) (w : Word) :
    (s.clearStatus w).params = s.params := rfl
@[simp] theorem State.clearStatus_events (s : State) (w : Word) :
    (s.clearStatus w).events = s.events := rfl
@[simp] theorem State.clearStatus_responses (s : State) (w : Word) :
    (s.clearStatus w).responses = s.responses := rfl
@[simp] theorem State.clearStatus_draws (s : State) (w : Word) :
    (s.clearStatus w).draws = s.draws := rfl

/-! ## softReset -/

@[simp] theorem State.softReset_ctrlIE (s : State) :
    s.softReset.ctrlIE = s.ctrlIE := rfl
@[simp] theorem State.softReset_done (s : State) :
    s.softReset.done = s.done := rfl
@[simp] theorem State.softReset_err (s : State) :
    s.softReset.err = s.err := rfl
@[simp] theorem State.softReset_ovr (s : State) :
    s.softReset.ovr = false := rfl
@[simp] theorem State.softReset_errCode (s : State) :
    s.softReset.errCode = s.errCode := rfl
@[simp] theorem State.softReset_lastCmd (s : State) :
    s.softReset.lastCmd = s.lastCmd := rfl
@[simp] theorem State.softReset_pending (s : State) :
    s.softReset.pending = s.pending := rfl
@[simp] theorem State.softReset_version (s : State) :
    s.softReset.version = 0 := rfl
@[simp] theorem State.softReset_ecl (s : State) :
    s.softReset.ecl = 0 := rfl
@[simp] theorem State.softReset_result (s : State) :
    s.softReset.result = 0 := rfl
@[simp] theorem State.softReset_mask (s : State) :
    s.softReset.mask = 0 := rfl
@[simp] theorem State.softReset_mvalid (s : State) :
    s.softReset.mvalid = false := rfl
@[simp] theorem State.softReset_score (s : State) :
    s.softReset.score = 0 := rfl
@[simp] theorem State.softReset_scoreR1 (s : State) :
    s.softReset.scoreR1 = 0 := rfl
@[simp] theorem State.softReset_scoreR2 (s : State) :
    s.softReset.scoreR2 = 0 := rfl
@[simp] theorem State.softReset_scoreR3 (s : State) :
    s.softReset.scoreR3 = 0 := rfl
@[simp] theorem State.softReset_scoreR4 (s : State) :
    s.softReset.scoreR4 = 0 := rfl
@[simp] theorem State.softReset_scoreDark (s : State) :
    s.softReset.scoreDark = 0 := rfl
@[simp] theorem State.softReset_scoreN (s : State) :
    s.softReset.scoreN = 0 := rfl
@[simp] theorem State.softReset_scoreM (s : State) :
    s.softReset.scoreM = Vector.replicate 8 0 := rfl
@[simp] theorem State.softReset_rsSrc (s : State) :
    s.softReset.rsSrc = 0 := rfl
@[simp] theorem State.softReset_rsLen (s : State) :
    s.softReset.rsLen = 0 := rfl
@[simp] theorem State.softReset_rsDst (s : State) :
    s.softReset.rsDst = 0 := rfl
@[simp] theorem State.softReset_mem (s : State) :
    s.softReset.mem = s.mem := rfl
@[simp] theorem State.softReset_faulted (s : State) :
    s.softReset.faulted = s.faulted := rfl
@[simp] theorem State.softReset_rst (s : State) :
    s.softReset.rst = s.rst := rfl
@[simp] theorem State.softReset_params (s : State) :
    s.softReset.params = s.params := rfl
@[simp] theorem State.softReset_events (s : State) :
    s.softReset.events = s.events := rfl
@[simp] theorem State.softReset_responses (s : State) :
    s.softReset.responses = s.responses := rfl
@[simp] theorem State.softReset_draws (s : State) :
    s.softReset.draws = s.draws := rfl

/-! ## hardReset -/

@[simp] theorem State.hardReset_ctrlIE (s : State) (level : Bool) :
    (s.hardReset level).ctrlIE = false := rfl
@[simp] theorem State.hardReset_done (s : State) (level : Bool) :
    (s.hardReset level).done = false := rfl
@[simp] theorem State.hardReset_err (s : State) (level : Bool) :
    (s.hardReset level).err = false := rfl
@[simp] theorem State.hardReset_ovr (s : State) (level : Bool) :
    (s.hardReset level).ovr = false := rfl
@[simp] theorem State.hardReset_errCode (s : State) (level : Bool) :
    (s.hardReset level).errCode = 0 := rfl
@[simp] theorem State.hardReset_lastCmd (s : State) (level : Bool) :
    (s.hardReset level).lastCmd = 0 := rfl
@[simp] theorem State.hardReset_pending (s : State) (level : Bool) :
    (s.hardReset level).pending = none := rfl
@[simp] theorem State.hardReset_version (s : State) (level : Bool) :
    (s.hardReset level).version = 0 := rfl
@[simp] theorem State.hardReset_ecl (s : State) (level : Bool) :
    (s.hardReset level).ecl = 0 := rfl
@[simp] theorem State.hardReset_result (s : State) (level : Bool) :
    (s.hardReset level).result = 0 := rfl
@[simp] theorem State.hardReset_mask (s : State) (level : Bool) :
    (s.hardReset level).mask = 0 := rfl
@[simp] theorem State.hardReset_mvalid (s : State) (level : Bool) :
    (s.hardReset level).mvalid = false := rfl
@[simp] theorem State.hardReset_score (s : State) (level : Bool) :
    (s.hardReset level).score = 0 := rfl
@[simp] theorem State.hardReset_scoreR1 (s : State) (level : Bool) :
    (s.hardReset level).scoreR1 = 0 := rfl
@[simp] theorem State.hardReset_scoreR2 (s : State) (level : Bool) :
    (s.hardReset level).scoreR2 = 0 := rfl
@[simp] theorem State.hardReset_scoreR3 (s : State) (level : Bool) :
    (s.hardReset level).scoreR3 = 0 := rfl
@[simp] theorem State.hardReset_scoreR4 (s : State) (level : Bool) :
    (s.hardReset level).scoreR4 = 0 := rfl
@[simp] theorem State.hardReset_scoreDark (s : State) (level : Bool) :
    (s.hardReset level).scoreDark = 0 := rfl
@[simp] theorem State.hardReset_scoreN (s : State) (level : Bool) :
    (s.hardReset level).scoreN = 0 := rfl
@[simp] theorem State.hardReset_scoreM (s : State) (level : Bool) :
    (s.hardReset level).scoreM = Vector.replicate 8 0 := rfl
@[simp] theorem State.hardReset_rsSrc (s : State) (level : Bool) :
    (s.hardReset level).rsSrc = 0 := rfl
@[simp] theorem State.hardReset_rsLen (s : State) (level : Bool) :
    (s.hardReset level).rsLen = 0 := rfl
@[simp] theorem State.hardReset_rsDst (s : State) (level : Bool) :
    (s.hardReset level).rsDst = 0 := rfl
@[simp] theorem State.hardReset_mem (s : State) (level : Bool) :
    (s.hardReset level).mem = [] := rfl
@[simp] theorem State.hardReset_faulted (s : State) (level : Bool) :
    (s.hardReset level).faulted = s.faulted := rfl
@[simp] theorem State.hardReset_rst (s : State) (level : Bool) :
    (s.hardReset level).rst = level := rfl
@[simp] theorem State.hardReset_params (s : State) (level : Bool) :
    (s.hardReset level).params = s.params := rfl
@[simp] theorem State.hardReset_events (s : State) (level : Bool) :
    (s.hardReset level).events = s.events := rfl
@[simp] theorem State.hardReset_responses (s : State) (level : Bool) :
    (s.hardReset level).responses = s.responses := rfl
@[simp] theorem State.hardReset_draws (s : State) (level : Bool) :
    (s.hardReset level).draws = s.draws := rfl

end Sys2Proof.Machine
end

