-- ==== Sys2Proof/Laws/Ops.lean ====
section
/-! SUPPORT. The laws of the shared operations: completing and failing, the version check, gathering reads, the block reads, and the shape of what the encoder and the matrix builder give. -/

namespace Sys2Proof.Machine

/-! ## Completion -/

/-- A command whose effect ran completes in the finished state of that effect. -/
theorem complete_eq_next (o : Option State) (t : State) :
    complete o = .next t ↔ ∃ u, o = some u ∧ t = u.finish := by
  cases o <;> simp [complete, eq_comm]

/-- A command faults exactly when its effect read a byte never written. -/
theorem complete_eq_fault (o : Option State) (f : Fault) : complete o = .fault f ↔ o = none := by
  cases o <;> cases f <;> simp [complete]

theorem complete_ne_refused (o : Option State) (r : Refusal) : complete o ≠ .refused r := by
  cases o <;> simp [complete]

/-- A command error, field by field (R256). -/
theorem State.raise_eq (s : State) (e : CommandError) :
    s.raise e = { s with err := true, errCode := e.code, done := true, pending := none } := rfl

/-- The codes of the command errors are 1 to 5 (R251). -/
theorem CommandError.code_bounds (e : CommandError) : 1 ≤ e.code.toNat ∧ e.code.toNat ≤ 5 := by
  cases e <;> decide

/-! ## The version check -/

/-- The version a symbol command runs at (R29). -/
theorem State.symbolVersion_eq_some (s : State) (v : Nat) :
    s.symbolVersion = some v ↔ s.version.toNat = v ∧ 1 ≤ v ∧ v ≤ 40 := by
  unfold symbolVersion
  split
  · rw [Option.some.injEq]
    constructor
    · rintro rfl; exact ⟨rfl, ‹_›⟩
    · exact And.left
  · constructor
    · exact fun h => absurd h (by simp)
    · rintro ⟨rfl, h⟩; contradiction

theorem State.symbolVersion_eq_none (s : State) :
    s.symbolVersion = none ↔ s.version.toNat = 0 ∨ 41 ≤ s.version.toNat := by
  unfold symbolVersion
  split
  · simp; omega
  · simp; omega

/-- Everything the version check can do (R253). -/
theorem withVersion_cases (s : State) (k : Nat → Result) :
    (∃ v, s.symbolVersion = some v ∧ withVersion s k = k v) ∨
    (s.symbolVersion = none ∧ withVersion s k = .next (s.raise .unsupportedVersion)) := by
  unfold withVersion
  cases h : s.symbolVersion with
  | none => exact .inr ⟨rfl, rfl⟩
  | some v => exact .inl ⟨v, rfl, rfl⟩

theorem withVersion_of_legal (s : State) (v : Nat) (k : Nat → Result) (hv : s.version.toNat = v)
    (h1 : 1 ≤ v) (h2 : v ≤ 40) : withVersion s k = k v := by
  rw [withVersion, (s.symbolVersion_eq_some v).2 ⟨hv, h1, h2⟩]

theorem withVersion_of_illegal (s : State) (k : Nat → Result)
    (h : s.version.toNat = 0 ∨ 41 ≤ s.version.toNat) :
    withVersion s k = .next (s.raise .unsupportedVersion) := by
  rw [withVersion, s.symbolVersion_eq_none.2 h]

/-! ## Gathering reads -/

/-- Gathering succeeds exactly when the function is defined at every element, with the values in order. -/
theorem gather_eq_some {α β : Type} (f : α → Option β) (l : List α) (bs : List β) :
    gather f l = some bs ↔ l.map f = bs.map some := by
  induction l generalizing bs with
  | nil => cases bs <;> simp [gather]
  | cons a as ih =>
    rw [gather]
    cases hb : f a with
    | none => cases bs <;> simp [hb]
    | some b =>
      cases hg : gather f as with
      | none =>
        cases bs with
        | nil => simp
        | cons c cs => have := (ih cs).not.1 (by simp [hg]); simp [hb, this]
      | some cs =>
        have h := (ih cs).1 hg
        simp only [Option.some.injEq, List.map_cons, hb, h]
        constructor
        · rintro rfl; rfl
        · intro he
          cases bs with
          | nil => simp at he
          | cons d ds =>
            simp only [List.map_cons, List.cons.injEq, Option.some.injEq] at he
            obtain ⟨rfl, he⟩ := he
            rw [List.cons.injEq]
            exact ⟨rfl, (List.map_injective_iff.2 (Option.some_injective β)) he⟩

theorem gather_length {α β : Type} (f : α → Option β) (l : List α) (bs : List β) (h : gather f l = some bs) :
    bs.length = l.length := by
  have := congrArg List.length ((gather_eq_some f l bs).1 h)
  simpa using this.symm

/-- Gathering fails exactly when the function is undefined at some element. -/
theorem gather_eq_none {α β : Type} (f : α → Option β) (l : List α) :
    gather f l = none ↔ ∃ a ∈ l, f a = none := by
  induction l with
  | nil => simp [gather]
  | cons a as ih =>
    rw [gather]
    cases hb : f a with
    | none => simp [hb]
    | some b =>
      cases hg : gather f as with
      | none => simp [hb, ih.1 hg]
      | some cs =>
        have : ¬ ∃ a ∈ as, f a = none := fun h => by rw [ih.2 h] at hg; exact absurd hg (by simp)
        simpa [hb] using this

/-! ## Shapes -/

theorem timesRoot_length (p : BitVec 9) (g : List Byte) (r : Byte) :
    (timesRoot p g r).length = g.length + 1 := by simp [timesRoot]

/-- The generator polynomial has C + 1 coefficients (R130). -/
theorem genPoly_length (p : BitVec 9) (c : Nat) : (genPoly p c).length = c + 1 := by
  induction c with
  | zero => rfl
  | succ c ih => rw [genPoly, timesRoot_length, ih]

/-- One elimination drops one coefficient (R132), where the generator is no longer than what it eliminates from. -/
theorem eliminate_length (p : BitVec 9) (g r : List Byte) (h : g.length ≤ r.length) (hg : g ≠ []) :
    (eliminate p g r).length + 1 = r.length := by
  have : 0 < g.length := List.length_pos_iff.2 hg
  cases r with
  | nil => simp at h; exact absurd h hg
  | cons x xs =>
    rw [eliminate]
    split
    · simp
    · simp only [List.length_zipWith, List.length_append, List.length_map, List.length_tail,
        List.length_replicate, List.length_cons] at h ⊢
      omega

/-- There are C correction codewords (R132). -/
theorem rsRemainder_length (p : BitVec 9) (m : List Byte) (c : Nat) : (rsRemainder p m c).length = c := by
  have key : ∀ (n : Nat) (r : List Byte), r.length = n + c →
      (Nat.repeat (eliminate p (genPoly p c)) n r).length = c := by
    intro n
    induction n with
    | zero => intro r h; simpa [Nat.repeat] using h
    | succ n ih =>
      intro r h
      have hc : ∀ (k : Nat) (x : List Byte),
          Nat.repeat (eliminate p (genPoly p c)) (k + 1) x =
            Nat.repeat (eliminate p (genPoly p c)) k (eliminate p (genPoly p c) x) := by
        intro k
        induction k with
        | zero => intro x; rfl
        | succ k ih => intro x; rw [Nat.repeat, ih x]; rfl
      rw [hc]
      refine ih _ ?_
      have := eliminate_length p (genPoly p c) r (by rw [genPoly_length]; omega)
        (List.ne_nil_of_length_pos (by rw [genPoly_length]; omega))
      omega
  exact key _ _ (by simp)

/-- A module's code is 0, 1 or 2 (R40). -/
theorem Module.code_lt (m : Module) : m.code.toNat < 3 := by cases m <;> decide

/-- A placed bit is Dark or Light, never Unset (R16). -/
theorem Module.ofBit_ne_unset (b : Bool) : Module.ofBit b ≠ .unset := by cases b <;> decide

theorem gridRows_length (s : Nat) (g : Grid) : (gridRows s g).length = s := by simp [gridRows]

theorem placedRows_length (s : Nat) (g : Grid) (p : List ((Nat × Nat) × Module)) :
    (placedRows s g p).length = s := by simp [placedRows]

theorem transpose_length {α : Type} (n : Nat) (rows : List (List α)) (h : ∀ r ∈ rows, r.length = n) :
    (transpose n rows).length = n := by
  induction rows with
  | nil => simp [transpose]
  | cons r rs ih =>
    have hr := h r (by simp)
    have := ih fun x hx => h x (by simp [hx])
    simp only [transpose, List.foldr_cons, List.length_zipWith] at this ⊢
    omega

theorem transpose_row_length {α : Type} (n : Nat) (rows : List (List α)) :
    ∀ r ∈ transpose n rows, r.length = rows.length := by
  induction rows with
  | nil => intro r hr; simp [transpose] at hr; simp [hr.2]
  | cons x xs ih =>
    intro r hr
    simp only [transpose, List.foldr_cons] at hr ih
    rw [List.mem_iff_getElem] at hr
    obtain ⟨i, hi, rfl⟩ := hr
    rw [List.getElem_zipWith, List.length_cons, ih _ (List.getElem_mem _), List.length_cons]

/-- A framed square has n rows. -/
theorem frame_length (lead n s : Nat) (rows : List (List Module)) (h : rows.length = s) (hn : lead + s ≤ n) :
    (frame lead n s rows).length = n := by
  simp [frame, h]; omega

/-- Every row of a framed square has n cells. -/
theorem frame_row_length (lead n s : Nat) (rows : List (List Module)) (h : ∀ r ∈ rows, r.length = s)
    (hn : lead + s ≤ n) : ∀ r ∈ frame lead n s rows, r.length = n := by
  intro r hr
  simp only [frame, List.mem_append, List.mem_replicate, List.mem_map] at hr
  rcases hr with (⟨-, rfl⟩ | ⟨x, hx, rfl⟩) | ⟨-, rfl⟩
  · simp
  · simp [h x hx]; omega
  · simp

theorem storedRows_length (par : Params) (s : Nat) (rows : List (List Module)) (h : rows.length = s)
    (hr : ∀ r ∈ rows, r.length = s) : (storedRows par s rows).length = s := by
  unfold storedRows
  split
  · exact transpose_length s rows hr
  · exact h

theorem storedRows_row_length (par : Params) (s : Nat) (rows : List (List Module)) (h : rows.length = s)
    (hr : ∀ r ∈ rows, r.length = s) : ∀ r ∈ storedRows par s rows, r.length = s := by
  unfold storedRows
  split
  · intro r hr'; rw [transpose_row_length s rows r hr', h]
  · exact hr

theorem flatten_length_of_rows {α : Type} (rows : List (List α)) (n : Nat) (h : ∀ r ∈ rows, r.length = n) :
    rows.flatten.length = rows.length * n := by
  induction rows with
  | nil => simp
  | cons r rs ih =>
    rw [List.flatten_cons, List.length_append, h r (by simp), ih fun x hx => h x (by simp [hx]),
      List.length_cons, Nat.succ_mul, Nat.add_comm]

/-- The whole frame is stored: 185 × 185 cells (R172, R186). -/
theorem frameBytes_length (par : Params) (s : Nat) (rows : List (List Module)) (h : rows.length = s)
    (hr : ∀ r ∈ rows, r.length = s) (hs : s ≤ 177) : (frameBytes par s rows).length = 34225 := by
  have hn : 4 + s ≤ frameSide := by simp only [frameSide]; omega
  rw [frameBytes, List.length_map,
    flatten_length_of_rows _ frameSide (frame_row_length 4 frameSide s _ (storedRows_row_length par s rows h hr) hn),
    frame_length 4 frameSide s _ (storedRows_length par s rows h hr) hn]
  rfl

/-- Every stored cell is a code 0, 1 or 2 (R40). -/
theorem frameBytes_code (par : Params) (s : Nat) (rows : List (List Module)) :
    ∀ b ∈ frameBytes par s rows, b.toNat < 3 := by
  intro b hb
  simp only [frameBytes, List.mem_map] at hb
  obtain ⟨m, -, rfl⟩ := hb
  exact m.code_lt

/-! ## The tables -/

/-- The dimensions of every (version, level) fit the regions and their blocks (R140 to R149): the blocks tile the data
codewords, and the correction codewords and all codewords fit ECC and CW. -/
theorem capacity_bounds : ∀ v, 1 ≤ v → v ≤ 40 → ∀ lv : Level,
    1 ≤ blockCount v lv ∧ blockCount v lv ≤ 81 ∧ 7 ≤ eccPerBlock v lv ∧ eccPerBlock v lv ≤ 30 ∧
    blockCount v lv * eccPerBlock v lv + dataCodewords v lv = totalCodewords v ∧
    blockCount v lv * shortLength v lv + (blockCount v lv - shortBlocks v lv) = dataCodewords v lv ∧
    1 ≤ shortBlocks v lv ∧ shortBlocks v lv ≤ blockCount v lv ∧
    totalCodewords v ≤ 3706 ∧ remainderModules v < 8 := by
  have key : ∀ v, v ≤ 40 → 1 ≤ v → ∀ lv ∈ [Level.L, .M, .Q, .H],
      1 ≤ blockCount v lv ∧ blockCount v lv ≤ 81 ∧ 7 ≤ eccPerBlock v lv ∧ eccPerBlock v lv ≤ 30 ∧
      blockCount v lv * eccPerBlock v lv + dataCodewords v lv = totalCodewords v ∧
      blockCount v lv * shortLength v lv + (blockCount v lv - shortBlocks v lv) = dataCodewords v lv ∧
      1 ≤ shortBlocks v lv ∧ shortBlocks v lv ≤ blockCount v lv ∧
      totalCodewords v ≤ 3706 ∧ remainderModules v < 8 := by decide +kernel
  exact fun v h1 h2 lv => key v h2 h1 lv (by cases lv <;> decide)

end Sys2Proof.Machine
end

