-- ==== Sys2Proof/Laws/Exec.lean ====
section
/-! SUPPORT. What each command can do, said once: the states its meaning can answer and when it faults. -/

namespace Sys2Proof.Machine

/-- GEN_POLY (R134). -/
theorem execGenPoly_eq (c : Nat) (s : State) :
    execGenPoly c s = if c = 0 then .next (s.raise .range)
      else .next (s.store .gen 0 (genPoly s.params.gfPoly c)).finish := rfl

/-- RS_ENC (R135): RANGE, the fault, or the correction codewords of the message stored. -/
theorem execRsEnc_cases (c : Nat) (s : State) :
    (s.rsInRange c = false ∧ execRsEnc c s = .next (s.raise .range)) ∨
    (s.rsInRange c = true ∧ s.load .data s.rsSrc.toNat s.rsLen.toNat = none ∧
      execRsEnc c s = .fault .readUnwritten) ∨
    (∃ m, s.rsInRange c = true ∧ s.load .data s.rsSrc.toNat s.rsLen.toNat = some m ∧
      execRsEnc c s = .next (s.store .ecc s.rsDst.toNat (rsRemainder s.params.gfPoly m c)).finish) := by
  unfold execRsEnc rsEncEffect
  cases hr : s.rsInRange c with
  | false => exact .inl ⟨rfl, by simp⟩
  | true =>
    cases hl : s.load .data s.rsSrc.toNat s.rsLen.toNat with
    | none => exact .inr (.inl ⟨rfl, rfl, by simp [complete]⟩)
    | some m => exact .inr (.inr ⟨m, rfl, rfl, by simp [complete]⟩)

/-- The effect of ECC_BLOCKS (R150): one store into ECC. -/
theorem eccBlocksEffect_eq_some (v : Nat) (s u : State) :
    eccBlocksEffect v s = some u ↔ ∃ d, s.dataBlocks v s.level = some d ∧
      u = s.store .ecc 0 (d.flatMap fun blk => rsRemainder s.params.gfPoly blk (eccPerBlock v s.level)) := by
  simp [eccBlocksEffect, eq_comm]

/-- The effect of INTERLEAVE (R161): one store into CW. -/
theorem interleaveEffect_eq_some (v : Nat) (s u : State) :
    interleaveEffect v s = some u ↔ ∃ d e, s.dataBlocks v s.level = some d ∧ s.eccBlocks v s.level = some e ∧
      u = s.store .cw 0 (interleaveBlocks v s.level d e) := by
  unfold interleaveEffect
  cases s.dataBlocks v s.level <;> cases s.eccBlocks v s.level <;> simp [eq_comm]

/-- The effect of BUILD (R189): the symbol into GRID, and MASKSEL. -/
theorem buildEffect_eq_some (m : MaskId) (v : Nat) (s u : State) :
    buildEffect m v s = some u ↔ ∃ cw, s.load .cw 0 (totalCodewords v) = some cw ∧
      u = (s.storeGrid v (symbolRows s.params v s.level m cw)).setMask m := by
  simp [buildEffect, eq_comm]

/-- The effect of AUTO_MASK (R222). -/
theorem autoMaskEffect_eq_some (v : Nat) (s u : State) :
    autoMaskEffect v s = some u ↔ ∃ cw, s.load .cw 0 (totalCodewords v) = some cw ∧
      u = autoMaskStore v cw (Vector.ofFn fun m => candidateScore s.params v s.level cw m) s := by
  simp [autoMaskEffect, eq_comm]

/-- The effect of ECC_BLOCKS then INTERLEAVE (R242). -/
theorem encodeEffect_eq_some (v : Nat) (s u : State) :
    encodeEffect v s = some u ↔ ∃ a, eccBlocksEffect v s = some a ∧ interleaveEffect v a = some u := by
  simp [encodeEffect, Option.bind_eq_some_iff]

/-- SCORE (R220): the version error, the fault, or the score of the cells. -/
theorem execScore_cases (s : State) :
    (s.symbolVersion = none ∧ execScore s = .next (s.raise .unsupportedVersion)) ∨
    (∃ v, s.symbolVersion = some v ∧ s.domain v = none ∧ execScore s = .fault .readUnwritten) ∨
    (∃ v rows, s.symbolVersion = some v ∧ s.domain v = some rows ∧ execScore s = .next (scoreCells v s rows)) := by
  unfold execScore withVersion
  cases hv : s.symbolVersion with
  | none => exact .inl ⟨rfl, rfl⟩
  | some v =>
    cases hd : s.domain v with
    | none => exact .inr (.inl ⟨v, rfl, hd, by simp [hd]⟩)
    | some rows => exact .inr (.inr ⟨v, rows, rfl, hd, by simp [hd]⟩)

/-- No command is refused. -/
theorem exec_ne_refused (i : Instr) (s : State) (r : Refusal) : exec i s ≠ .refused r := by
  have hv : ∀ k : Nat → Result, (∀ v, k v ≠ .refused r) → withVersion s k ≠ .refused r := by
    intro k hk
    rcases withVersion_cases s k with ⟨v, -, h⟩ | ⟨-, h⟩
    · rw [h]; exact hk v
    · rw [h]; simp
  cases i with
  | nop => simp [exec, execNop]
  | sreset => simp [exec, execSreset]
  | gfAdd a b => simp [exec, execGfAdd]
  | gfMul a b => simp [exec, execGfMul]
  | gfInv a => unfold exec; dsimp only; unfold execGfInv; split <;> simp
  | gfExp n => simp [exec, execGfExp]
  | gfLog a => unfold exec; dsimp only; unfold execGfLog; split <;> simp
  | genPoly c => unfold exec; dsimp only; unfold execGenPoly; split <;> simp
  | rsEnc c => unfold exec; dsimp only; unfold execRsEnc; split <;> simp [complete_ne_refused]
  | eccBlocks => exact hv _ fun v => complete_ne_refused _ r
  | interleave => exact hv _ fun v => complete_ne_refused _ r
  | buildFunc m => exact hv _ fun v => by simp
  | build m => exact hv _ fun v => complete_ne_refused _ r
  | maskEval x y m bit => simp [exec, execMaskEval]
  | score =>
    rcases execScore_cases s with ⟨-, h⟩ | ⟨v, -, -, h⟩ | ⟨v, rows, -, -, h⟩ <;> simp [exec, h]
  | autoMask => exact hv _ fun v => complete_ne_refused _ r
  | generate m => exact hv _ fun v => complete_ne_refused _ r
  | generateAuto => exact hv _ fun v => complete_ne_refused _ r

end Sys2Proof.Machine
end

