-- ==== Sys2Proof/Laws/Gf.lean ====
section
/-! SUPPORT. The EXP and LOG tables of the field arithmetic: the list of powers against the recurrence of R111, and what LOG finds in it. -/

namespace Sys2Proof.Machine

/-- The powers of 2 are the iterates of multiplication by 2, from 1 (R111). -/
theorem power_eq_iterate (p : BitVec 9) (i : Nat) : power p i = (xtime p)^[i] 1 := by
  induction i with
  | zero => rfl
  | succ i ih => rw [power, ih, Function.iterate_succ_apply']

@[simp] theorem powersFrom_length (p : BitVec 9) (n : Nat) (x : Byte) : (powersFrom p n x).length = n := by
  induction n generalizing x with
  | zero => rfl
  | succ n ih => rw [powersFrom, List.length_cons, ih]

/-- Entry i of the list of powers from `x` on is the i-th iterate. -/
theorem powersFrom_getElem? (p : BitVec 9) (n : Nat) (x : Byte) (i : Nat) (h : i < n) :
    (powersFrom p n x)[i]? = some ((xtime p)^[i] x) := by
  induction n generalizing x i with
  | zero => omega
  | succ n ih =>
    cases i with
    | zero => rfl
    | succ i => rw [powersFrom, List.getElem?_cons_succ, ih _ _ (by omega), Function.iterate_succ_apply]

/-- Entry i of the EXP table is the i-th power of 2. -/
theorem powersFrom_one (p : BitVec 9) (n i : Nat) (h : i < n) : (powersFrom p n 1)[i]? = some (power p i) := by
  rw [powersFrom_getElem? p n 1 i h, power_eq_iterate]

/-- EXP has only the powers of 2 with an exponent in range. -/
theorem mem_powersFrom_one (p : BitVec 9) (n : Nat) (a : Byte) : a ∈ powersFrom p n 1 ↔ ∃ i, i < n ∧ power p i = a := by
  rw [List.mem_iff_getElem?]
  constructor
  · rintro ⟨i, hi⟩
    have hn : i < n := by
      have := (List.getElem?_eq_some_iff.mp hi).1
      rwa [powersFrom_length] at this
    exact ⟨i, hn, by rw [powersFrom_one p n i hn] at hi; exact Option.some.inj hi⟩
  · rintro ⟨i, hn, rfl⟩
    exact ⟨i, powersFrom_one p n i hn⟩

/-- With no entry repeated, an exponent in range is determined by its power. -/
theorem power_injective_of_nodup (p : BitVec 9) (n : Nat) (hd : (powersFrom p n 1).Nodup) (i j : Nat)
    (hi : i < n) (hj : j < n) (h : power p i = power p j) : i = j := by
  refine (List.getElem?_inj (by rwa [powersFrom_length]) hd).mp ?_
  rw [powersFrom_one p n i hi, powersFrom_one p n j hj, h]

end Sys2Proof.Machine
end

