-- ==== Sys2Proof/Laws/Matrix.lean ====
section
/-! SUPPORT. What each step of the matrix builder can do to a cell, and which cells the function patterns leave Unset. -/

namespace Sys2Proof.Machine

/-! ## The grid operations -/

theorem Grid.set_apply (g : Grid) (a b : Nat) (m : Module) (y x : Nat) :
    g.set a b m y x = if y = a ∧ x = b then m else g y x := rfl

theorem Grid.setAll_cons (g : Grid) (c : (Nat × Nat) × Module) (cs : List ((Nat × Nat) × Module)) :
    g.setAll (c :: cs) = (g.set c.1.1 c.1.2 c.2).setAll cs := rfl

/-- Writing a list of cells leaves every cell that is not in it. -/
theorem Grid.setAll_of_not_mem (cs : List ((Nat × Nat) × Module)) (g : Grid) (y x : Nat)
    (h : (y, x) ∉ cs.map Prod.fst) : g.setAll cs y x = g y x := by
  induction cs generalizing g with
  | nil => rfl
  | cons c cs ih =>
    rw [List.map_cons, List.mem_cons, not_or] at h
    rw [setAll_cons, ih _ h.2, set_apply, if_neg]
    rintro ⟨rfl, rfl⟩
    exact h.1 rfl

/-- A cell of the list holds, afterwards, the module of one of its entries. -/
theorem Grid.setAll_of_mem (cs : List ((Nat × Nat) × Module)) (g : Grid) (y x : Nat)
    (h : (y, x) ∈ cs.map Prod.fst) : ((y, x), g.setAll cs y x) ∈ cs := by
  induction cs generalizing g with
  | nil => simp at h
  | cons c cs ih =>
    rw [setAll_cons]
    by_cases hm : (y, x) ∈ cs.map Prod.fst
    · exact List.mem_cons_of_mem _ (ih _ hm)
    · rw [List.map_cons, List.mem_cons] at h
      have hc : (y, x) = c.1 := h.resolve_right hm
      rw [setAll_of_not_mem _ _ _ _ hm, set_apply, if_pos (by rw [← hc]; exact ⟨rfl, rfl⟩), hc]
      exact List.mem_cons_self ..

/-- Writing cells with modules that are not Unset leaves a cell Unset exactly when it was and is none of them. -/
theorem Grid.setAll_eq_unset_iff (cs : List ((Nat × Nat) × Module)) (g : Grid) (y x : Nat)
    (hcs : ∀ c ∈ cs, c.2 ≠ .unset) : g.setAll cs y x = .unset ↔ g y x = .unset ∧ (y, x) ∉ cs.map Prod.fst := by
  by_cases h : (y, x) ∈ cs.map Prod.fst
  · have := hcs _ (setAll_of_mem cs g y x h)
    simp [h, this]
  · rw [setAll_of_not_mem _ _ _ _ h]; simp [h]

/-- Squares of radius r without Unset leave a cell Unset exactly when it was and none of them reaches it. -/
theorem Grid.rings_eq_unset_iff (r : Nat) (val : Nat → Module) (hval : ∀ d, val d ≠ .unset)
    (centres : List (Nat × Nat)) (g : Grid) (y x : Nat) :
    centres.foldl (Grid.ring r val) g y x = .unset ↔
      g y x = .unset ∧ ∀ c ∈ centres, r < max (gap y c.1) (gap x c.2) := by
  induction centres generalizing g with
  | nil => simp
  | cons c cs ih =>
    rw [List.foldl_cons, ih, List.forall_mem_cons, ← and_assoc]
    refine and_congr_left fun _ => ?_
    show (if max (gap y c.1) (gap x c.2) ≤ r then _ else _) = _ ↔ _
    split
    · next h => exact ⟨fun e => absurd e (hval _), fun e => absurd e.2 (by omega)⟩
    · next h => exact ⟨fun e => ⟨e, by omega⟩, fun e => e.1⟩

/-- A square leaves every cell it does not reach. -/
theorem Grid.ring_of_far (r : Nat) (val : Nat → Module) (g : Grid) (c : Nat × Nat) (y x : Nat)
    (h : r < max (gap y c.1) (gap x c.2)) : Grid.ring r val g c y x = g y x := if_neg (by omega)

/-- A square writes every cell it reaches, by its distance. -/
theorem Grid.ring_of_near (r : Nat) (val : Nat → Module) (g : Grid) (c : Nat × Nat) (y x : Nat)
    (h : max (gap y c.1) (gap x c.2) ≤ r) : Grid.ring r val g c y x = val (max (gap y c.1) (gap x c.2)) := if_pos h

/-! ## The steps -/

theorem timingStep_eq_unset_iff (g : Grid) (y x : Nat) :
    timingStep g y x = .unset ↔ g y x = .unset ∧ y ≠ 6 ∧ x ≠ 6 := by
  unfold timingStep
  by_cases hg : g y x = .unset
  · rw [if_pos hg]
    by_cases hy : y = 6
    · rw [if_pos hy]; simp [hy, Module.ofBit_ne_unset]
    · rw [if_neg hy]
      by_cases hx : x = 6
      · rw [if_pos hx]; simp [hx, Module.ofBit_ne_unset]
      · rw [if_neg hx]; simp [hg, hy, hx]
  · rw [if_neg hg]; simp [hg]

/-- The timing step leaves every cell that is set. -/
theorem timingStep_of_set (g : Grid) (y x : Nat) (h : g y x ≠ .unset) : timingStep g y x = g y x := if_neg h

theorem formatCells_ne_unset (s : Nat) (lv : Level) (m : MaskId) : ∀ c ∈ formatCells s lv m, c.2 ≠ .unset := by
  intro c hc
  simp only [formatCells, List.mem_flatMap, List.mem_cons, List.not_mem_nil, or_false] at hc
  obtain ⟨i, -, rfl | rfl⟩ := hc <;> exact Module.ofBit_ne_unset _

theorem versionCells_ne_unset (v : Nat) : ∀ c ∈ versionCells v, c.2 ≠ .unset := by
  intro c hc
  simp only [versionCells, List.mem_flatMap, List.mem_cons, List.not_mem_nil, or_false] at hc
  obtain ⟨i, -, rfl | rfl⟩ := hc <;> exact Module.ofBit_ne_unset _

/-- The places of the format bits do not depend on the level or the mask. -/
theorem mem_formatCells_iff (s : Nat) (lv : Level) (m : MaskId) (c : Nat × Nat) :
    c ∈ (formatCells s lv m).map Prod.fst ↔ ∃ i, i < 15 ∧ (c = formatCell1 i ∨ c = formatCell2 s i) := by
  simp only [formatCells, List.mem_map, List.mem_flatMap, List.mem_range, List.mem_cons, List.not_mem_nil, or_false]
  constructor
  · rintro ⟨d, ⟨i, hi, rfl | rfl⟩, rfl⟩
    · exact ⟨i, hi, .inl rfl⟩
    · exact ⟨i, hi, .inr rfl⟩
  · rintro ⟨i, hi, rfl | rfl⟩
    · exact ⟨_, ⟨i, hi, .inl rfl⟩, rfl⟩
    · exact ⟨_, ⟨i, hi, .inr rfl⟩, rfl⟩

/-- The places of the version bits. -/
theorem mem_versionCells_iff (v : Nat) (c : Nat × Nat) :
    c ∈ (versionCells v).map Prod.fst ↔
      ∃ i, i < 18 ∧ (c = (i / 3, side v - 11 + i % 3) ∨ c = (side v - 11 + i % 3, i / 3)) := by
  simp only [versionCells, List.mem_map, List.mem_flatMap, List.mem_range, List.mem_cons, List.not_mem_nil, or_false]
  constructor
  · rintro ⟨d, ⟨i, hi, rfl | rfl⟩, rfl⟩
    · exact ⟨i, hi, .inl rfl⟩
    · exact ⟨i, hi, .inr rfl⟩
  · rintro ⟨i, hi, rfl | rfl⟩
    · exact ⟨_, ⟨i, hi, .inl rfl⟩, rfl⟩
    · exact ⟨_, ⟨i, hi, .inr rfl⟩, rfl⟩

/-- The data area (R190): a cell is Unset after steps 0 to 5 exactly when no function pattern has it. Neither the level nor
the mask is in the condition. -/
theorem functionGrid_eq_unset_iff (v : Nat) (lv : Level) (m : MaskId) (y x : Nat) :
    functionGrid v lv m y x = .unset ↔
      y ≠ 6 ∧ x ≠ 6 ∧ ¬ (y = side v - 8 ∧ x = 8) ∧
      (¬ ∃ i, i < 15 ∧ ((y, x) = formatCell1 i ∨ (y, x) = formatCell2 (side v) i)) ∧
      (∀ c ∈ alignmentCentres v, 2 < max (gap y c.1) (gap x c.2)) ∧
      (7 ≤ v → ¬ ∃ i, i < 18 ∧
        ((y, x) = (i / 3, side v - 11 + i % 3) ∨ (y, x) = (side v - 11 + i % 3, i / 3))) ∧
      ∀ c ∈ [(3, 3), (3, side v - 4), (side v - 4, 3)], 4 < max (gap y c.1) (gap x c.2) := by
  have hv : ∀ g : Grid, versionStep v g y x = .unset ↔ g y x = .unset ∧ (7 ≤ v → ¬ ∃ i, i < 18 ∧
      ((y, x) = (i / 3, side v - 11 + i % 3) ∨ (y, x) = (side v - 11 + i % 3, i / 3))) := by
    intro g
    unfold versionStep
    split
    · next h =>
      rw [Grid.setAll_eq_unset_iff _ _ _ _ (versionCells_ne_unset v), mem_versionCells_iff]
      exact and_congr_right fun _ => ⟨fun k _ => k, fun k => k h⟩
    · next h => exact ⟨fun k => ⟨k, fun h' => absurd h' h⟩, And.left⟩
  have hf : ∀ g : Grid, formatStep (side v) lv m g y x = .unset ↔ g y x = .unset ∧ ¬ (y = side v - 8 ∧ x = 8) ∧
      ¬ ∃ i, i < 15 ∧ ((y, x) = formatCell1 i ∨ (y, x) = formatCell2 (side v) i) := by
    intro g
    rw [formatStep, Grid.set_apply]
    split
    · next h => simp [h]
    · next h =>
      rw [Grid.setAll_eq_unset_iff _ _ _ _ (formatCells_ne_unset (side v) lv m), mem_formatCells_iff]
      exact and_congr_right fun _ => ⟨fun k => ⟨h, k⟩, And.right⟩
  have ha : ∀ g : Grid, alignmentStep v g y x = .unset ↔
      g y x = .unset ∧ ∀ c ∈ alignmentCentres v, 2 < max (gap y c.1) (gap x c.2) :=
    fun g => Grid.rings_eq_unset_iff 2 _ (fun d => by split <;> decide) _ g y x
  have hn : finderStep (side v) clearStep y x = .unset ↔
      ∀ c ∈ [(3, 3), (3, side v - 4), (side v - 4, 3)], 4 < max (gap y c.1) (gap x c.2) :=
    (Grid.rings_eq_unset_iff 4 _ (fun d => by split <;> decide) _ clearStep y x).trans
      ⟨And.right, fun h => ⟨rfl, h⟩⟩
  rw [functionGrid, timingStep_eq_unset_iff, hf, ha, hv, hn]
  tauto

/-- Every data-area cell is a cell of the zigzag that is Unset after steps 0 to 5, and the other way round. -/
theorem mem_dataCells_iff (v : Nat) (lv : Level) (m : MaskId) (c : Nat × Nat) :
    c ∈ dataCells v lv m ↔ c ∈ zigzag (side v) ∧ functionGrid v lv m c.1 c.2 = .unset := by
  simp [dataCells]

/-- One cell after another of the zigzag of one column pair. -/
theorem mem_pairCells_iff (right : Nat) (rows : List Nat) (y x : Nat) :
    (y, x) ∈ pairCells right rows ↔ y ∈ rows ∧ (x = right ∨ x = right - 1) := by
  simp only [pairCells, List.mem_flatMap, List.mem_cons, List.not_mem_nil, or_false, Prod.mk.injEq]
  constructor
  · rintro ⟨z, hz, ⟨rfl, rfl⟩ | ⟨rfl, rfl⟩⟩
    · exact ⟨hz, .inl rfl⟩
    · exact ⟨hz, .inr rfl⟩
  · rintro ⟨hy, rfl | rfl⟩
    · exact ⟨y, hy, .inl ⟨rfl, rfl⟩⟩
    · exact ⟨y, hy, .inr ⟨rfl, rfl⟩⟩

theorem pairCells_length (right : Nat) (rows : List Nat) : (pairCells right rows).length = 2 * rows.length := by
  simp [pairCells, Nat.mul_comm]

/-- The k-th row of a column pair gives the cells 2·k and 2·k + 1. -/
theorem pairCells_getElem? (right : Nat) (rows : List Nat) (k y : Nat) (h : rows[k]? = some y) :
    (pairCells right rows)[2 * k]? = some (y, right) ∧ (pairCells right rows)[2 * k + 1]? = some (y, right - 1) := by
  induction rows generalizing k with
  | nil => simp at h
  | cons z zs ih =>
    cases k with
    | zero => simp only [List.getElem?_cons_zero, Option.some.injEq] at h; subst h; exact ⟨rfl, rfl⟩
    | succ k => exact ih k (by simpa using h)

theorem placeBits_length (par : Params) (m : MaskId) (cells : List (Nat × Nat)) (bits : List Bool) :
    (placeBits par m cells bits).length = cells.length := by
  induction cells generalizing bits with
  | nil => rfl
  | cons c cs ih =>
    obtain ⟨y, x⟩ := c
    cases bits with
    | nil => simp only [placeBits, List.length_cons, ih]
    | cons b bs => simp only [placeBits, List.length_cons, ih]

end Sys2Proof.Machine
end

