-- ==== Sys2Proof/Laws/PerInstr.lean ====
section
/-! SUPPORT. The per-instruction family OpcodeField: the word of every command carries its opcode in bits [7:0] (R90, R98). -/

namespace Sys2Proof.Laws.OpcodeField

/-- The opcode of a command in the opcode map (R98). -/
def opcodeOf : Instr → Nat
  | .nop => 0x00
  | .sreset => 0x01
  | .gfAdd _ _ => 0x10
  | .gfMul _ _ => 0x11
  | .gfInv _ => 0x12
  | .gfExp _ => 0x13
  | .gfLog _ => 0x14
  | .genPoly _ => 0x20
  | .rsEnc _ => 0x21
  | .eccBlocks => 0x30
  | .interleave => 0x31
  | .buildFunc _ => 0x40
  | .build _ => 0x41
  | .maskEval _ _ _ _ => 0x50
  | .score => 0x51
  | .autoMask => 0x52
  | .generate _ => 0x60
  | .generateAuto => 0x60

/-- The word of a command has the command's opcode in its opcode field. -/
def Statement (i : Instr) : Prop := opcode (encode i) = opcodeOf i

theorem opcode_assembleWord (opc rest : Nat) (h : opc < 256) : opcode (assembleWord opc rest) = opc := by
  unfold opcode slice assembleWord
  rw [BitVec.toNat_ofNat]
  omega

theorem nop : Statement (.nop) := opcode_assembleWord _ _ (by decide)

theorem sreset : Statement (.sreset) := opcode_assembleWord _ _ (by decide)

theorem gfAdd (a b : Byte) : Statement (.gfAdd a b) := opcode_assembleWord _ _ (by decide)

theorem gfMul (a b : Byte) : Statement (.gfMul a b) := opcode_assembleWord _ _ (by decide)

theorem gfInv (a : Byte) : Statement (.gfInv a) := opcode_assembleWord _ _ (by decide)

theorem gfExp (n : Nat) : Statement (.gfExp n) := opcode_assembleWord _ _ (by decide)

theorem gfLog (a : Byte) : Statement (.gfLog a) := opcode_assembleWord _ _ (by decide)

theorem genPoly (c : Nat) : Statement (.genPoly c) := opcode_assembleWord _ _ (by decide)

theorem rsEnc (c : Nat) : Statement (.rsEnc c) := opcode_assembleWord _ _ (by decide)

theorem eccBlocks : Statement (.eccBlocks) := opcode_assembleWord _ _ (by decide)

theorem interleave : Statement (.interleave) := opcode_assembleWord _ _ (by decide)

theorem buildFunc (m : MaskId) : Statement (.buildFunc m) := opcode_assembleWord _ _ (by decide)

theorem build (m : MaskId) : Statement (.build m) := opcode_assembleWord _ _ (by decide)

theorem maskEval (x y : Nat) (m : MaskId) (bit : Bool) : Statement (.maskEval x y m bit) := opcode_assembleWord _ _ (by decide)

theorem score : Statement (.score) := opcode_assembleWord _ _ (by decide)

theorem autoMask : Statement (.autoMask) := opcode_assembleWord _ _ (by decide)

theorem generate (m : MaskId) : Statement (.generate m) := opcode_assembleWord _ _ (by decide)

theorem generateAuto : Statement (.generateAuto) := opcode_assembleWord _ _ (by decide)

end Sys2Proof.Laws.OpcodeField
end

