-- ==== Sys2Proof/Laws/Step.lean ====
section
/-! SUPPORT. What one step can do, said once: the engine's turn, one event, one transaction, and the step. -/

namespace Sys2Proof.Machine

/-- Everything the engine's turn can do (R252, R256, R264). -/
theorem engineTurn_cases (s t : State) (h : engineTurn s = .next t) :
    (s.pending = none ∧ t = s) ∨
    (∃ w, s.pending = some w ∧ decodeWord w = none ∧ t = s.raise .illegalCmd) ∨
    (∃ w i, s.pending = some w ∧ decodeWord w = some i ∧ exec i s = .next t) ∨
    (∃ w i f, s.pending = some w ∧ decodeWord w = some i ∧ exec i s = .fault f ∧
      t = { s with faulted := true }) := by
  unfold engineTurn at h
  rcases Option.eq_none_or_eq_some s.pending with hp | ⟨w, hp⟩
  · rw [hp] at h; simp at h; exact .inl ⟨hp, h.symm⟩
  · rw [hp] at h
    dsimp only at h
    unfold completeWord at h
    cases hd : decodeWord w with
    | none => rw [hd] at h; simp at h; exact .inr (.inl ⟨w, hp, hd, h.symm⟩)
    | some i =>
      rw [hd] at h
      dsimp only at h
      cases he : exec i s with
      | next u =>
        rw [he] at h
        simp [settle] at h
        exact .inr (.inr (.inl ⟨w, i, hp, hd, by rw [he, h]⟩))
      | fault f =>
        rw [he] at h
        simp [settle] at h
        exact .inr (.inr (.inr ⟨w, i, f, hp, hd, he, h.symm⟩))
      | refused r => exact absurd he (exec_ne_refused i s r)

/-- The engine's turn always answers a next state. -/
theorem engineTurn_isNext (s : State) : ∃ t, engineTurn s = .next t := by
  unfold engineTurn completeWord
  split
  · exact ⟨_, rfl⟩
  · split
    · exact ⟨_, rfl⟩
    · next i _ =>
      cases he : exec i s with
      | next u => exact ⟨_, rfl⟩
      | fault f => exact ⟨_, rfl⟩
      | refused r => exact absurd he (exec_ne_refused i s r)

/-- Everything a host write of a register can do (R66, R70): its state is `s` with one of these updates. -/
theorem hostWriteReg_cases (s : State) (w : Word) (r : Reg) :
    (s.hostWriteReg w r).2 = s ∨
    (s.hostWriteReg w r).2 = { s with ctrlIE := w.getLsbD 0 } ∨
    (s.hostWriteReg w r).2 = s.clearStatus w ∨
    (s.busy = true ∧ (s.hostWriteReg w r).2 = { s with ovr := true }) ∨
    (s.busy = false ∧ (s.hostWriteReg w r).2 = s.accept w) ∨
    (s.busy = false ∧ ∃ v e, (s.hostWriteReg w r).2 = { s with version := v, ecl := e }) ∨
    (s.busy = false ∧ ∃ a l d, (s.hostWriteReg w r).2 = { s with rsSrc := a, rsLen := l, rsDst := d }) := by
  cases r with
  | ctrl => exact .inr (.inl rfl)
  | status => exact .inr (.inr (.inl rfl))
  | cmd =>
    cases hb : s.busy with
    | true => exact .inr (.inr (.inr (.inl ⟨rfl, by simp [State.hostWriteReg, hb]⟩)))
    | false => exact .inr (.inr (.inr (.inr (.inl ⟨rfl, by simp [State.hostWriteReg, hb]⟩))))
  | cfg =>
    cases hb : s.busy with
    | true => exact .inl (by simp [State.hostWriteReg, hb])
    | false =>
      exact .inr (.inr (.inr (.inr (.inr (.inl ⟨rfl, _, _, by simp only [State.hostWriteReg, hb]; rfl⟩)))))
  | rsSrc =>
    cases hb : s.busy with
    | true => exact .inl (by simp [State.hostWriteReg, hb])
    | false =>
      exact .inr (.inr (.inr (.inr (.inr (.inr ⟨rfl, _, s.rsLen, s.rsDst, by
        simp only [State.hostWriteReg, hb]; rfl⟩)))))
  | rsLen =>
    cases hb : s.busy with
    | true => exact .inl (by simp [State.hostWriteReg, hb])
    | false =>
      exact .inr (.inr (.inr (.inr (.inr (.inr ⟨rfl, s.rsSrc, _, s.rsDst, by
        simp only [State.hostWriteReg, hb]; rfl⟩)))))
  | rsDst =>
    cases hb : s.busy with
    | true => exact .inl (by simp [State.hostWriteReg, hb])
    | false =>
      exact .inr (.inr (.inr (.inr (.inr (.inr ⟨rfl, s.rsSrc, s.rsLen, _, by
        simp only [State.hostWriteReg, hb]; rfl⟩)))))
  | id => exact .inl rfl
  | result => exact .inl rfl
  | maskSel => exact .inl rfl
  | score => exact .inl rfl
  | scoreR1 => exact .inl rfl
  | scoreR2 => exact .inl rfl
  | scoreR3 => exact .inl rfl
  | scoreR4 => exact .inl rfl
  | scoreDark => exact .inl rfl
  | scoreN => exact .inl rfl
  | scoreM m => exact .inl rfl
  | infoSize => exact .inl rfl
  | infoCw => exact .inl rfl
  | infoBlk => exact .inl rfl
  | infoRaw => exact .inl rfl

/-- Everything a host write can do (R60 to R70): nothing, a register's update, or a region's lanes. -/
theorem busWrite_cases (s : State) (addr : Addr) (w : Word) (strb : BitVec 4) :
    (s.busWrite addr w strb).2 = s ∨
    (∃ r, (s.busWrite addr w strb).2 = (s.hostWriteReg w r).2) ∨
    (∃ r a, target addr = .word r a ∧ s.busy = false ∧
      (s.busWrite addr w strb).2 = { s with mem := s.mem.hostWriteWord r a w strb }) := by
  unfold State.busWrite
  split
  · exact .inl rfl
  · next r _ =>
    split
    · exact .inr (.inl ⟨r, rfl⟩)
    · exact .inl rfl
  · next r a ht =>
    cases hb : s.busy with
    | true => exact .inl rfl
    | false => exact .inr (.inr ⟨r, a, ht, rfl, rfl⟩)

/-- Everything one step can do. -/
theorem step_cases (s t : State) (h : step s = .next t) :
    s.faulted = false ∧
    ((s.events = [] ∧ engineTurn s = .next t) ∨
     (∃ rest, s.events = .engine :: rest ∧ engineTurn { s with events := rest } = .next t) ∨
     (∃ rest l, s.events = .rst l :: rest ∧ t = ({ s with events := rest } : State).hardReset l) ∨
     (∃ rest x, s.events = .host x :: rest ∧ s.rst = true ∧ t = { s with events := rest }) ∨
     (∃ rest x, s.events = .host x :: rest ∧ s.rst = false ∧
       t = ({ s with events := rest } : State).transact x)) := by
  unfold step at h
  have hf : s.faulted = false := by
    by_contra hf
    rw [Bool.not_eq_false] at hf
    simp [hf] at h
  refine ⟨hf, ?_⟩
  rw [if_neg (by simp [hf])] at h
  unfold stepLive at h
  rcases hs : s.events with _ | ⟨e, rest⟩
  · rw [hs] at h; exact .inl ⟨rfl, h⟩
  · rw [hs] at h
    dsimp only at h
    cases e with
    | engine => exact .inr (.inl ⟨rest, rfl, h⟩)
    | rst l =>
      simp only [handleEvent, Host.Outcome.next.injEq] at h
      exact .inr (.inr (.inl ⟨rest, l, rfl, h.symm⟩))
    | host x =>
      simp only [handleEvent, Host.Outcome.next.injEq] at h
      by_cases hr : s.rst = true
      · rw [if_pos hr] at h; exact .inr (.inr (.inr (.inl ⟨rest, x, rfl, hr, h.symm⟩)))
      · rw [if_neg hr] at h
        exact .inr (.inr (.inr (.inr ⟨rest, x, rfl, by simpa using hr, h.symm⟩)))

/-- A step of a machine that is not faulted answers a next state. -/
theorem step_isNext (s : State) (h : s.faulted = false) : ∃ t, step s = .next t := by
  unfold step stepLive handleEvent
  rw [h]
  simp only [Bool.false_eq_true, if_false]
  split
  · exact engineTurn_isNext s
  · split
    · exact ⟨_, rfl⟩
    · exact engineTurn_isNext _
    · exact ⟨_, rfl⟩

end Sys2Proof.Machine
end

