-- ==== Sys2Proof/Tests/Slice0.lean ====
section
/-! SUPPORT. Small tests of the model against the words and vectors of spec/, and a witness for the hypotheses of every statement. -/

namespace Sys2Proof.Machine

set_option Elab.async false

/-! ## Decoding: words written out from the patterns of R98 -/

theorem test_decode_nop : decodeWord 0b00000000000000000000000000000000 = some .nop := by decide
theorem test_decode_sreset : decodeWord 0b00000000000000000000000000000001 = some .sreset := by decide
theorem test_decode_gfAdd : decodeWord 0b00000000110010100101001100010000 = some (.gfAdd 0x53 0xCA) := by decide
theorem test_decode_gfMul : decodeWord 0b00000000000000101000111000010001 = some (.gfMul 0x8E 0x02) := by decide
theorem test_decode_gfInv : decodeWord 0b00000000000000000101001100010010 = some (.gfInv 0x53) := by decide
theorem test_decode_gfExp : decodeWord 0b00000000000000001111111100010011 = some (.gfExp 255) := by decide
theorem test_decode_gfLog : decodeWord 0b00000000000000000001110100010100 = some (.gfLog 0x1D) := by decide
theorem test_decode_genPoly : decodeWord 0b00000000000000000000011100100000 = some (.genPoly 7) := by decide
theorem test_decode_rsEnc : decodeWord 0b00000000000000000000101000100001 = some (.rsEnc 10) := by decide
theorem test_decode_eccBlocks : decodeWord 0b00000000000000000000000000110000 = some .eccBlocks := by decide
theorem test_decode_interleave : decodeWord 0b00000000000000000000000000110001 = some .interleave := by decide
theorem test_decode_buildFunc : decodeWord 0b00000000000000000000011001000000 = some (.buildFunc 6) := by decide
theorem test_decode_build : decodeWord 0b00000000000000000000000101000001 = some (.build 1) := by decide
theorem test_decode_maskEval :
    decodeWord 0b00001101000000110000001001010000 = some (.maskEval 2 3 5 true) := by decide
theorem test_decode_score : decodeWord 0b00000000000000000000000001010001 = some .score := by decide
theorem test_decode_autoMask : decodeWord 0b00000000000000000000000001010010 = some .autoMask := by decide
theorem test_decode_generate : decodeWord 0b00000000000000000000000101100000 = some (.generate 1) := by decide
theorem test_decode_generateAuto : decodeWord 0b00000000000000000000100001100000 = some .generateAuto := by decide

/-- The illegal words of 95_test_vectors.md sections 2.1, 2.6 and 2.7. -/
theorem test_decode_illegal :
    decodeWord 0x01CA5310 = none ∧ decodeWord 0x00010012 = none ∧ decodeWord 0x10000050 = none ∧
      decodeWord 0x00000960 = none ∧ decodeWord 0x00001060 = none ∧ decodeWord 0x00000002 = none ∧
      decodeWord 0x00000100 = none := by decide

/-! ## Well-formedness: ill-formed terms are refused -/

theorem test_wf_gfExp : ¬ (Instr.gfExp 256).WellFormed ∧ (Instr.gfExp 255).WellFormed := by decide
theorem test_wf_genPoly : ¬ (Instr.genPoly 256).WellFormed ∧ (Instr.genPoly 0).WellFormed := by decide
theorem test_wf_rsEnc : ¬ (Instr.rsEnc 256).WellFormed ∧ (Instr.rsEnc 255).WellFormed := by decide
theorem test_wf_maskEval_x : ¬ (Instr.maskEval 256 0 0 true).WellFormed := by decide
theorem test_wf_maskEval_y :
    ¬ (Instr.maskEval 0 256 7 false).WellFormed ∧ (Instr.maskEval 255 255 7 true).WellFormed := by decide

/-! ## The assembler (R102, R104) -/

theorem test_assemble_maskEval : assembleLine "mask.eval 2, 3, 5, 1" = some (.maskEval 2 3 5 true) := by
  decide +kernel
theorem test_assemble_hex : assembleLine "gf.add 0x53, 0xCA ; xor" = some (.gfAdd 0x53 0xCA) := by decide +kernel
theorem test_assemble_range :
    assembleLine "build 8" = none ∧ assembleLine "rs.enc 256" = none ∧
      assembleLine "gen.poly 0" = some (.genPoly 0) := by decide +kernel

/-- Program P2's first line expands to the four writes its comment lists. -/
theorem test_wrb_expands :
    HostLine.expand (.wrb 0x1000 [0x20, 0x5B, 0x0B, 0x78, 0xD1]) =
      [.host (.write 0x1000 0x780B5B20 0b1111), .host (.write 0x1004 0x000000D1 0b0001)] := by decide +kernel

/-! ## One step each (95_test_vectors.md) -/

/-- What the step that runs the command word `w` answers. -/
def ran (s : State) (w : Nat) : Option State :=
  match step (s.withFetchWord 32 w) with
  | .next t => some t
  | _ => none

/-- RESULT and STATUS after the command word `w` right after reset. -/
def resultOf (w : Nat) : Option (Byte × Word) := (ran State.reset w).map fun t => (t.result, t.statusWord)

/-- STATUS after the command word `w`. -/
def statusOf (s : State) (w : Nat) : Option Word := (ran s w).map State.statusWord

/-- A core right after reset with CFG written. -/
def configured (v e : Nat) : State := { State.reset with version := BitVec.ofNat 6 v, ecl := BitVec.ofNat 2 e }

theorem test_nop : statusOf State.reset 0x00000000 = some 0x00000002 := by decide +kernel
theorem test_sreset :
    ran { State.reset with version := 1, ecl := 2, mask := 1, mvalid := true, ovr := true, ctrlIE := true } 1 =
      some { State.reset with ctrlIE := true, done := true, lastCmd := 1 } := by decide +kernel
theorem test_gfAdd : resultOf 0x00CA5310 = some (0x99, 2) := by decide +kernel
theorem test_gfMul : resultOf 0x00CA5311 = some (0x8F, 2) := by decide +kernel
theorem test_gfMul_zero : resultOf 0x00FF0011 = some (0x00, 2) := by decide +kernel
theorem test_gfInv : resultOf 0x00005312 = some (0x8C, 2) := by decide +kernel
theorem test_gfInv_zero : resultOf 0x00000012 = some (0, 0x306) := by decide +kernel
theorem test_gfExp : resultOf 0x00001913 = some (0x03, 2) := by decide +kernel
theorem test_gfExp_wraps : resultOf 0x0000FF13 = some (0x01, 2) := by decide +kernel
theorem test_gfLog : resultOf 0x00008E14 = some (0xFE, 2) := by decide +kernel
theorem test_gfLog_zero : resultOf 0x00000014 = some (0, 0x306) := by decide +kernel
theorem test_genPoly :
    (ran State.reset 0x00000720).bind (fun t => t.load .gen 0 8) =
      some [0x01, 0x7F, 0x7A, 0x9A, 0xA4, 0x0B, 0x44, 0x75] := by decide +kernel
theorem test_genPoly_zero : statusOf State.reset 0x00000020 = some 0x406 := by decide +kernel
theorem test_rsEnc :
    (ran { State.store State.reset .data 5 [0x12, 0x34] with rsSrc := 5, rsLen := 2, rsDst := 9 } 0x00000721).bind
        (fun t => t.load .ecc 9 7) = some [0x4A, 0xE1, 0x1A, 0x00, 0x68, 0x0F, 0xF0] := by decide +kernel
theorem test_rsEnc_range :
    statusOf { State.reset with rsSrc := 4090, rsLen := 10 } 0x00000721 = some 0x406 ∧
      statusOf { State.reset with rsDst := 4090 } 0x00000721 = some 0x406 := by decide +kernel

/-- Version 1-M, "HELLO WORLD" (R150's example). -/
theorem test_eccBlocks :
    (ran ((configured 1 1).store .data 0
        [0x20, 0x5B, 0x0B, 0x78, 0xD1, 0x72, 0xDC, 0x4D, 0x43, 0x40, 0xEC, 0x11, 0xEC, 0x11, 0xEC, 0x11]) 0x30).bind
        (fun t => t.load .ecc 0 10) =
      some [0xC4, 0x23, 0x27, 0x77, 0xEB, 0xD7, 0xE7, 0xE2, 0x5D, 0x17] := by decide +kernel
/-- 1-Q with DATA[12] never written (section 2.4). -/
theorem test_eccBlocks_fault :
    exec .eccBlocks ((configured 1 2).store .data 0 (List.replicate 12 0)) = .fault .readUnwritten := rfl
/-- Version 5-Q, DATA[i] = i: the first codewords, the two long blocks' last bytes and the first correction bytes. -/
theorem test_interleave :
    ((ran (((configured 5 2).store .data 0 ((List.range 62).map (BitVec.ofNat 8))).store .ecc 0
        ((List.range 72).map fun i => if i = 0 then 0x82 else if i = 18 then 0x55 else 0)) 0x31).bind
        (fun t => t.load .cw 0 134)).map (fun l => (l.take 8, (l.drop 58).take 6)) =
      some ([0x00, 0x0F, 0x1E, 0x2E, 0x01, 0x10, 0x1F, 0x2F], [0x2C, 0x3C, 0x2D, 0x3D, 0x82, 0x55]) := by
  decide +kernel
theorem test_interleave_version : statusOf (configured 0 0) 0x31 = some 0x206 := by decide +kernel

/-- FMTINFO (R179) and VERINFO (R175) of section 2.5. -/
theorem test_format_and_version :
    fmtInfo .L 1 = 0x72F3 ∧ fmtInfo .M 0 = 0x5412 ∧ fmtInfo .Q 6 = 0x2EDA ∧ fmtInfo .H 7 = 0x083B ∧
      verInfo 7 = 0x07C94 := by decide +kernel
/-- AL(7), and the order of the first data cells of version 1 (sections 2.5, R177, R183). -/
theorem test_coordinates :
    alignmentCoords 7 = [6, 22, 38] ∧ alignmentCoords 1 = [] ∧
      (zigzag (side 1)).take 4 = [(20, 20), (20, 19), (19, 20), (19, 19)] := by decide +kernel
/-- The alignment pattern of version 2 (section 2.5), row 18. -/
theorem test_buildFunc_alignment :
    [14, 15, 16, 17, 18, 19, 20, 21, 22].map (fun x => functionGrid 2 .L 0 18 x) =
      [.unset, .unset, .dark, .light, .dark, .light, .dark, .unset, .unset] := by decide +kernel
theorem test_buildFunc_version : statusOf (configured 41 0) 0x40 = some 0x206 := by decide +kernel
/-- The first 8 cells of the codeword 0x10 under mask 1 (section 2.5). -/
theorem test_build_first_codeword :
    (placeBits Params.default 1 [(20, 20), (20, 19), (19, 20), (19, 19), (18, 20), (18, 19), (17, 20), (17, 19)]
        (bitsOf 0x10)).map (·.2) = [.dark, .dark, .light, .dark, .dark, .dark, .light, .light] := by decide +kernel
theorem test_build_fault : exec (.build 0) (configured 1 0) = .fault .readUnwritten := rfl

theorem test_maskEval : resultOf 0x0D030250 = some (0, 2) := by decide +kernel
theorem test_maskEval_row : resultOf 0x01020350 = some (1, 2) := by decide +kernel

/-- The all-Light grid of version 1 (section 2.6). -/
theorem test_score_light :
    scoreOf Params.default 21 (List.replicate 21 (List.replicate 21 false)) = ⟨798, 1200, 0, -100, 0, 441⟩ := by
  decide +kernel

/-- The symbol of program P3 ("12345", version 1-L, mask 1), row by row, `#` for Dark. -/
def symbolP3 : List (List Bool) :=
  ([0b111111101111101111111, 0b100000101101101000001, 0b101110100111001011101,
    0b101110100101101011101, 0b101110101000101011101, 0b100000101010001000001,
    0b111111101010101111111, 0b000000001111000000000, 0b111001101111111110011,
    0b011101011100000001011, 0b011011111110001000110, 0b110001000100100010111,
    0b110101101010001001001, 0b000000001101011101100, 0b111111100001110111001,
    0b100000101111011101110, 0b101110100111111111111, 0b101110100000000000000,
    0b101110101010001000111, 0b100000101000100010010, 0b111111101110001000111] : List Nat).map fun r => (List.range 21).map fun x => r.testBit (20 - x)

/-- The complete symbol of program P3 from its 26 codewords. -/
theorem test_build_symbol :
    (symbolRows Params.default 1 .L 1
        [0x10, 0x14, 0x7B, 0x5A, 0xEC, 0x11, 0xEC, 0x11, 0xEC, 0x11, 0xEC, 0x11, 0xEC, 0x11, 0xEC, 0x11, 0xEC, 0x11,
          0xEC, 0x45, 0x7C, 0x10, 0x43, 0x89, 0x4B, 0x9C]).map (fun r => r.map fun c => decide (c = .dark)) =
      symbolP3 := by decide +kernel

/-- SCORE of the symbol of program P3 (R220's example). -/
theorem test_score_symbol : scoreOf Params.default 21 symbolP3 = ⟨195, 126, 40, 6, 236, 441⟩ := by decide +kernel
theorem test_score_version : statusOf (configured 63 0) 0x51 = some 0x206 := by decide +kernel

/-- The selection of R221 on the totals of "HELLO WORLD" 1-Q, and the first of two equal totals. -/
theorem test_autoMask_selection :
    (selectMask fun m => [345, 466, 502, 437, 537, 516, 318, 558].getD m.val 0) = 6 ∧
      (selectMask fun m => [3, 2, 2, 2, 9, 9, 9, 9].getD m.val 0) = 1 := by decide +kernel
theorem test_autoMask_fault : exec .autoMask (configured 1 0) = .fault .readUnwritten := rfl
theorem test_generate_version : statusOf (configured 0 3) 0x160 = some 0x206 := by decide +kernel
theorem test_generateAuto_version : statusOf (configured 41 3) 0x860 = some 0x206 := by decide +kernel

/-! ## The bus (section 2.8) -/

theorem test_bus_errors :
    State.reset.busRead 0x00002 = (.error, 0) ∧ State.reset.busRead 0x00090 = (.error, 0) ∧
      State.reset.busRead 0x05000 = (.error, 0) ∧ (State.reset.busWrite 0x00010 0x00000201 0b0011).1 = .error := by
  decide +kernel
theorem test_bus_cfg :
    ((State.reset.busWrite 0x00010 0xFFFFFFFF 0b1111).2.busRead 0x00010) = (.okay, 0x0000033F) := by decide +kernel
theorem test_bus_lanes :
    (State.reset.busWrite 0x01000 0x44332211 0b0101).2.mem = [(0x1000, 0x11), (0x1002, 0x33)] := by decide +kernel
theorem test_bus_grid :
    (State.reset.busWrite 0x10000 0x000000FF 0b0001).2.mem = [(0x10000, 3)] ∧
      State.reset.busRead 0x185FC = (.okay, 0) := by decide +kernel
theorem test_bus_status :
    ({ State.reset with done := true, err := true, ovr := true, errCode := 5 }.busWrite 0x8 0xE 0b1111).2 =
      State.reset := by decide +kernel
/-- INFO_BLK and INFO_CW of 5-Q (section 2.3). -/
theorem test_bus_info :
    (configured 5 2).busRead 0x084 = (.okay, 0x0086003E) ∧
      (configured 5 2).busRead 0x088 = (.okay, 0x020F1204) := by decide +kernel

/-! ## Witnesses: the hypotheses of every statement are met -/

/-- A core with CFG = (v, level L) and every byte of DATA, ECC and CW written with 0 and every GRID cell Light. -/
@[irreducible] def loaded (v : Nat) : State :=
  ((((configured v 0).store .data 0 (List.replicate 4096 0)).store .ecc 0 (List.replicate 4096 0)).store .cw 0
    (List.replicate 4096 0)).store .grid 0 (List.replicate 34225 0)

/-- `loaded v` with the last cell of the default domain of version 1, (20, 20), holding the code c. -/
def spoiled (c : Byte) : State := (loaded 1).store .grid (24 * 185 + 24) [c]

/-- A core whose engine is about to complete the command word `w`. -/
def waiting (w : Word) : State := State.reset.accept w

theorem configured_atVersion : (configured 1 0).AtVersion 1 ∧ (configured 40 3).AtVersion 40 := by
  unfold State.AtVersion; decide

theorem loaded_read (v a : Nat) (h : (0x1000 ≤ a ∧ a < 0x4000) ∨ (0x10000 ≤ a ∧ a < 0x10000 + 34225)) :
    (loaded v).mem.read? a = some 0 := by
  unfold loaded
  simp only [State.store_read?, Region.base, List.length_replicate, List.getElem?_replicate]
  split
  · rw [if_pos (by omega)]
  · split
    · rw [if_pos (by omega)]
    · split
      · rw [if_pos (by omega)]
      · rw [if_pos (by omega), if_pos (by omega)]

theorem loaded_fields (v : Nat) :
    (loaded v).version = BitVec.ofNat 6 v ∧ (loaded v).level = .L ∧ (loaded v).params = Params.default ∧
      (loaded v).err = false := by
  unfold loaded; exact ⟨rfl, rfl, rfl, rfl⟩

theorem loaded_version (v : Nat) (h1 : 1 ≤ v) (h2 : v ≤ 40) : (loaded v).AtVersion v := by
  refine ⟨?_, h1, h2⟩
  rw [(loaded_fields v).1, BitVec.toNat_ofNat]; omega

theorem loaded_holds (v : Nat) (r : Region) (n : Nat) (hr : r = .data ∨ r = .ecc ∨ r = .cw) (hn : n ≤ 4096) :
    (loaded v).Holds r n fun _ => 0 := by
  intro i hi
  apply loaded_read
  rcases hr with rfl | rfl | rfl <;> simp only [Region.base] <;> omega

theorem loaded_load (v : Nat) (r : Region) (i n : Nat)
    (h : ∀ k, k < n → (0x1000 ≤ r.base + i + k ∧ r.base + i + k < 0x4000) ∨
      (0x10000 ≤ r.base + i + k ∧ r.base + i + k < 0x10000 + 34225)) :
    (loaded v).load r i n = some (List.replicate n 0) := by
  rw [State.load_eq_some]
  refine ⟨by simp, fun k hk => ?_⟩
  rw [loaded_read v _ (h k hk), List.getElem?_replicate, if_pos hk]

theorem witness_DecodeEncodeRoundTrip :
    (Instr.gfExp 255).WellFormed ∧ (Instr.genPoly 0).WellFormed ∧ (Instr.maskEval 255 255 7 true).WellFormed := by
  decide

theorem witness_DecodedWordIsItsEncoding :
    decodeWord 0x0FFFFF50 = some (.maskEval 255 255 7 true) ∧ decodeWord 0x860 = some .generateAuto := by decide

/-- A row that selects a word, at the highest fields, and a word no row selects. -/
theorem witness_OpcodeRowsSelectCommands :
    (0x00000860 : Word) &&& 0xFFFFFFFF = 0x00000860 ∧ (0x0FFFFF50 : Word) &&& 0xF00000FF = 0x00000050 ∧
      decodeWord 0x0FFFFF50 = some (.maskEval 255 255 7 true) ∧ decodeWord 0x00000002 = none := by decide

theorem witness_StepRunsPendingCommand :
    (waiting 0).faulted = false ∧ (waiting 0).pending = some 0 ∧ (waiting 0).events = [] ∧
      decodeWord 0 = some .nop ∧ exec .nop (waiting 0) = .next (waiting 0).finish := ⟨rfl, rfl, rfl, by decide, rfl⟩

theorem witness_StepRunsPendingCommand_fault :
    let s := { configured 1 0 with pending := some 0x41 }
    s.faulted = false ∧ s.pending = some 0x41 ∧ s.events = [] ∧ decodeWord 0x41 = some (.build 0) ∧
      exec (.build 0) s = .fault .readUnwritten := ⟨rfl, rfl, rfl, by decide, rfl⟩

theorem witness_StepRunsPendingCommand_event :
    let s := { waiting 0 with events := [.engine, .host (.read 0)] }
    s.faulted = false ∧ s.pending = some 0 ∧ s.events = .engine :: [.host (.read 0)] ∧
      exec .nop { s with events := [.host (.read 0)] } =
        .next ({ s with events := [.host (.read 0)] } : State).finish := ⟨rfl, rfl, rfl, rfl⟩

theorem witness_StepRunsPendingCommand_event_fault :
    let s := { configured 1 0 with pending := some 0x41, events := [.engine] }
    s.faulted = false ∧ s.pending = some 0x41 ∧ s.events = .engine :: [] ∧
      exec (.build 0) { s with events := [] } = .fault .readUnwritten := ⟨rfl, rfl, rfl, rfl⟩

theorem witness_StepRunsPendingCommand_fetch :
    ∃ t, exec .nop { State.reset with
      lastCmd := 0, pending := some 0, done := false, err := false, errCode := 0 } = .next t := ⟨_, rfl⟩

theorem witness_StepRunsPendingCommand_fetch_fault :
    decodeWord 0x41 = some (.build 0) ∧ (configured 1 0).faulted = false ∧
      exec (.build 0) { configured 1 0 with
        lastCmd := 0x41, pending := some 0x41, done := false, err := false, errCode := 0 } = .fault .readUnwritten :=
  ⟨by decide, rfl, rfl⟩

/-- A transaction to the first and to the last word of the address space, with the core idle and with a command pending. -/
theorem witness_StepRunsPendingCommand_host :
    (let s := { State.reset with events := [.host (.read 0), .engine] }
     s.faulted = false ∧ s.rst = false ∧ s.events = .host (.read 0) :: [.engine]) ∧
    (let s := { waiting 0 with events := [.host (.write 0x1FFFC 0 0b1111)] }
     s.faulted = false ∧ s.rst = false ∧ s.events = .host (.write 0x1FFFC 0 0b1111) :: []) :=
  ⟨⟨rfl, rfl, rfl⟩, rfl, rfl, rfl⟩

theorem witness_StepRunsPendingCommand_idle :
    (State.reset.faulted = false ∧ State.reset.pending = none ∧ State.reset.events = []) ∧
    (let s := { State.reset with events := [.engine, .host (.read 0)] }
     s.faulted = false ∧ s.pending = none ∧ s.events = .engine :: [.host (.read 0)]) :=
  ⟨⟨rfl, rfl, rfl⟩, rfl, rfl, rfl⟩

theorem witness_IllegalWordEndsWithIllegalCmd :
    (waiting 2).faulted = false ∧ (waiting 2).pending = some 2 ∧ decodeWord 2 = none ∧ (waiting 2).events = [] :=
  ⟨rfl, rfl, by decide, rfl⟩

theorem witness_IllegalWordEndsWithIllegalCmd_turn :
    let s := { waiting 2 with events := [.engine, .host (.read 0)] }
    s.faulted = false ∧ s.pending = some 2 ∧ decodeWord 2 = none ∧ s.events = .engine :: [.host (.read 0)] :=
  ⟨rfl, rfl, by decide, rfl⟩

theorem witness_FaultedMachineIsStuck : ({ State.reset with faulted := true } : State).faulted = true := rfl

theorem witness_FaultedMachineIsStuck_fault :
    let s := { configured 1 0 with pending := some 0x41 }
    s.faulted = false ∧ s.pending = some 0x41 ∧ decodeWord 0x41 = some (.build 0) ∧ s.events = [] ∧
      exec (.build 0) s = .fault .readUnwritten := ⟨rfl, rfl, by decide, rfl, rfl⟩

/-- A polynomial whose 255 powers of 2 are the 255 non-zero bytes is one of those the statements are about. -/
theorem isPrimitive_of_powers (p : BitVec 9) (hd : (powersFrom p 255 1).Nodup)
    (hm : ∀ n, n < 256 → n ≠ 0 → BitVec.ofNat 8 n ∈ powersFrom p 255 1) : IsPrimitive p := by
  have key : ∀ i, expEntry p i = power p i := fun i => (power_eq_iterate p i).symm
  intro a ha
  have hn : a.toNat ≠ 0 := fun h => ha (BitVec.eq_of_toNat_eq h)
  have := hm a.toNat a.isLt hn
  rw [BitVec.ofNat_toNat, BitVec.setWidth_eq] at this
  obtain ⟨i, hi, rfl⟩ := (mem_powersFrom_one p 255 a).mp this
  exact ⟨i, hi, key i, fun j hj h => power_injective_of_nodup p 255 hd j i hj hi (by rw [← key j, h])⟩

/-- The default polynomial, and another one for which 2 is primitive: x^8 + x^5 + x^3 + x + 1. -/
theorem witness_IsPrimitive : IsPrimitive 0x11D ∧ IsPrimitive 0x12B :=
  ⟨isPrimitive_of_powers _ (by decide +kernel) (by decide +kernel),
    isPrimitive_of_powers _ (by decide +kernel) (by decide +kernel)⟩

/-- At x^8 + x^4 + x^3 + x + 1 the powers of 2 repeat early: it is no such polynomial. -/
theorem test_not_isPrimitive : ¬ IsPrimitive 0x11B := by
  intro h
  obtain ⟨i, -, -, hu⟩ := h 1 (by decide)
  have h0 := hu 0 (by decide) rfl
  have h51 := hu 51 (by decide) (by decide +kernel)
  omega

theorem witness_GfMulResult : (254 < 255) ∧ ((0xFF : Byte) ≠ 0) ∧ ((0 : Byte) = 0) := by decide

theorem witness_GfInvResult :
    ((1 : Byte) ≠ 0) ∧ ((0xFF : Byte) ≠ 0) ∧ IsPrimitive State.reset.params.gfPoly ∧ gfMul 0x11D 2 0x8E = 1 ∧
      (let s := { State.reset with params := { Params.default with gfPoly := 0x12B } }
       IsPrimitive s.params.gfPoly) :=
  ⟨by decide, by decide, witness_IsPrimitive.1, by decide, witness_IsPrimitive.2⟩

theorem witness_GfExpResult : (0 : Nat) < 256 ∧ 255 < 256 := by decide

theorem witness_GfLogResult :
    ((1 : Byte) ≠ 0) ∧ IsPrimitive State.reset.params.gfPoly ∧ expEntry 0x11D 254 = 0x8E ∧
      (let s := { State.reset with params := { Params.default with gfPoly := 0x12B } }
       IsPrimitive s.params.gfPoly) :=
  ⟨by decide, witness_IsPrimitive.1, by decide +kernel, witness_IsPrimitive.2⟩

theorem witness_FieldLaws : ((1 : Byte) ≠ 0) ∧ ((0xFF : Byte) ≠ 0) ∧ IsPrimitive 0x11D ∧ IsPrimitive 0x12B :=
  ⟨by decide, by decide, witness_IsPrimitive⟩

theorem witness_OperandErrors :
    (0 : Nat) = 0 ∧
      4096 < ({ State.reset with rsSrc := 4095, rsLen := 2 } : State).rsSrc.toNat +
        ({ State.reset with rsSrc := 4095, rsLen := 2 } : State).rsLen.toNat ∧
      4096 < ({ State.reset with rsDst := 4095 } : State).rsDst.toNat + 2 := by decide

theorem witness_OperandErrors_none :
    ∃ t u, exec (.gfMul 0 7) State.reset = .next t ∧ exec (.gfExp 255) State.reset = .next u := ⟨_, _, rfl, rfl⟩

theorem witness_GenPolyWritesGenerator : (1 ≤ 1 ∧ 1 ≤ 255) ∧ 1 ≤ 255 ∧ 255 ≤ 255 := by decide

/-- The largest window in range, at the end of both regions. -/
theorem witness_RsEncWritesRemainder :
    let s := { loaded 1 with rsSrc := 4086, rsLen := 10, rsDst := 3841 }
    let m : List Byte := List.replicate 10 0
    1 ≤ 255 ∧ s.rsSrc.toNat + s.rsLen.toNat ≤ 4096 ∧ s.rsDst.toNat + 255 ≤ 4096 ∧ m.length = s.rsLen.toNat ∧
      ∀ k, k < m.length → s.mem.read? (0x1000 + s.rsSrc.toNat + k) = m[k]? := by
  refine ⟨by decide, by decide, by decide, by decide, fun k hk => ?_⟩
  simp only [List.length_replicate] at hk
  rw [List.getElem?_replicate, if_pos hk]
  exact loaded_read 1 _ (Or.inl ⟨by omega, by
    show 0x1000 + (4086 : BitVec 12).toNat + k < 0x4000
    rw [show (4086 : BitVec 12).toNat = 4086 from rfl]; omega⟩)

theorem witness_CodewordHasGeneratorRoots : (0 : Nat) < 1 ∧ 254 < 255 := by decide

theorem witness_EccBlocksWritesRemainders :
    ((loaded 1).AtVersion 1 ∧ (loaded 1).Holds .data (dataCodewords 1 (loaded 1).level) fun _ => 0) ∧
    ((loaded 40).AtVersion 40 ∧ (loaded 40).Holds .data (dataCodewords 40 (loaded 40).level) fun _ => 0) :=
  ⟨⟨loaded_version 1 (by decide) (by decide), loaded_holds 1 _ _ (.inl rfl) (by rw [(loaded_fields 1).2.1]; decide +kernel)⟩,
    loaded_version 40 (by decide) (by decide), loaded_holds 40 _ _ (.inl rfl) (by rw [(loaded_fields 40).2.1]; decide +kernel)⟩

/-- Version 5-Q has short and long blocks; version 40-L bounds the sizes. -/
theorem witness_InterleavePlacesCodewords :
    ((loaded 40).AtVersion 40 ∧ (loaded 40).Holds .data (dataCodewords 40 (loaded 40).level) (fun _ => 0) ∧
      (loaded 40).Holds .ecc (blockCount 40 (loaded 40).level * eccPerBlock 40 (loaded 40).level) (fun _ => 0)) ∧
    shortBlocks 40 .L ≤ 24 ∧ 24 < blockCount 40 .L ∧ 117 < shortLength 40 .L ∧ 29 < eccPerBlock 40 .L :=
  ⟨⟨loaded_version 40 (by decide) (by decide), loaded_holds 40 _ _ (.inl rfl) (by rw [(loaded_fields 40).2.1]; decide +kernel),
    loaded_holds 40 _ _ (.inr (.inl rfl)) (by rw [(loaded_fields 40).2.1]; decide +kernel)⟩, by decide +kernel⟩

theorem witness_UnsupportedVersionErrors :
    (configured 0 0).version.toNat = 0 ∧ 41 ≤ (configured 41 3).version.toNat ∧
      41 ≤ (configured 63 0).version.toNat := by decide

theorem witness_UnsupportedVersionErrors_legal :
    (configured 1 0).AtVersion 1 ∧ (configured 1 0).errCode ≠ 2 ∧
      exec .nop (configured 1 0) = .next (configured 1 0).finish :=
  ⟨configured_atVersion.1, by decide, rfl⟩

theorem witness_UnwrittenInputsFault :
    (let s := { State.reset with rsLen := 1 }
     1 ≤ 1 ∧ s.rsSrc.toNat + s.rsLen.toNat ≤ 4096 ∧ s.rsDst.toNat + 1 ≤ 4096 ∧ 0 < s.rsLen.toNat ∧
      s.mem.read? (0x1000 + s.rsSrc.toNat + 0) = none) ∧
    (let s := configured 40 3
     s.AtVersion 40 ∧ 1275 < dataCodewords 40 s.level ∧ s.mem.read? (0x1000 + 1275) = none ∧
      2429 < blockCount 40 s.level * eccPerBlock 40 s.level ∧ s.mem.read? (0x2000 + 2429) = none ∧
      3705 < totalCodewords 40 ∧ s.mem.read? (0x3000 + 3705) = none) ∧
    (let s := configured 1 0
     s.AtVersion 1 ∧ 20 < side 1 ∧ s.mem.read? (0x10000 + ((4 + 20) * 185 + (4 + 20))) = none) := by
  unfold State.AtVersion; decide +kernel

theorem witness_UnwrittenInputsFault_quietZone :
    let s := { configured 40 0 with params := { Params.default with scoreIncludesQz := true } }
    s.AtVersion 40 ∧ s.params.scoreIncludesQz = true ∧ 184 < side 40 + 8 ∧
      s.mem.read? (0x10000 + ((0 + 184) * 185 + (0 + 184))) = none := by
  unfold State.AtVersion; decide +kernel

/-- The corners of the 8 × 8 footprints, at the least and the greatest version. -/
theorem witness_FinderPatternsPlaced :
    (1 ≤ 1 ∧ 1 ≤ 40 ∧ 0 ≤ 7 ∧ 7 ≤ 7) ∧ functionGrid 1 .L 0 7 7 = .light ∧ functionGrid 40 .H 7 0 176 = .dark := by
  decide +kernel

theorem witness_AlignmentPatternsPlaced :
    (2 ≤ 7 ∧ 7 ≤ 40) ∧ (6 ∈ alignmentCoords 7 ∧ 22 ∈ alignmentCoords 7) ∧ 22 ≠ side 7 - 7 ∧ 4 ≤ 4 ∧
      (18 ∈ alignmentCoords 2 ∧ 18 = side 2 - 7) ∧ (2 ≤ 40 ∧ 170 ∈ alignmentCoords 40) := by decide +kernel

/-- The first and last index of the coordinates, at the first and last version that has any. -/
theorem witness_AlignmentPatternsPlaced_index :
    (1 ≤ 1 ∧ 1 < 2 / 7 + 2) ∧ (1 ≤ 6 ∧ 6 < 40 / 7 + 2) ∧ alignmentCoords 2 = [6, 18] ∧
      alignmentCoords 40 = [6, 30, 58, 86, 114, 142, 170] ∧ alignmentCoords 1 = [] := by decide +kernel

theorem witness_FormatInformationPlaced : (1 ≤ 1 ∧ 1 ≤ 40) ∧ (0 < 15 ∧ 14 < 15) ∧ 1 ≤ 40 ∧ 40 ≤ 40 := by decide

theorem witness_VersionInformationPlaced : (7 ≤ 7 ∧ 7 ≤ 40) ∧ (0 < 18 ∧ 17 < 18) ∧ 40 ≤ 40 ∧ 6 < 7 := by decide

theorem witness_TimingPatternsPlaced :
    (1 ≤ 1 ∧ 8 ≤ 8 ∧ 8 + 9 ≤ side 1) ∧ (8 ≤ 12 ∧ 12 + 9 ≤ side 1) ∧ 168 + 9 ≤ side 40 ∧ 5 ≠ 6 ∧ 7 ≠ 6 := by decide

/-- The module of the lowest format bit differs between the masks 0 and 1 of level L. -/
theorem witness_MaskChangesOnlyFormatInformation :
    (1 ≤ 1 ∧ 1 ≤ 40 ∧ 0 < side 1 ∧ 8 < side 1) ∧ functionGrid 1 .L 0 0 8 ≠ functionGrid 1 .L 1 0 8 ∧
      functionGrid 1 .L 0 20 20 = .unset := by decide +kernel

/-- R(1) = 208 and R(40) = 29648, with no remainder modules, are those the table of R146 prints. -/
theorem witness_MaskChangesOnlyFormatInformation_size :
    (1 ≤ 1 ∧ 1 ≤ 40) ∧ (1 ≤ 40 ∧ 40 ≤ 40) ∧ dataModules 1 = 208 ∧ dataModules 40 = 29648 ∧
      (dataCells 1 .L 0).length = 208 := by decide +kernel

theorem witness_BuildFuncStoresFunctionPatterns : (configured 1 0).AtVersion 1 ∧ (configured 40 3).AtVersion 40 :=
  configured_atVersion

theorem witness_ZigzagVisitsEveryCellOnce : (1 ≤ 1 ∧ 1 ≤ 40) ∧ 1 ≤ 40 ∧ 40 ≤ 40 := by decide

/-- The first and the last column pair, row and side of the symbols of version 1 and 40, and the pairs on both sides of
column 6. -/
theorem witness_ZigzagVisitsEveryCellOnce_order :
    (2 * 0 + 1 < side 1 ∧ 0 < side 1 ∧ 0 < 2) ∧ (2 * 9 + 1 < side 1 ∧ 20 < side 1 ∧ 1 < 2) ∧
      (2 * 87 + 1 < side 40 ∧ 176 < side 40) ∧ (6 < side 1 - 1 - 2 * 6 ∧ ¬ 6 < side 1 - 1 - 2 * 7) ∧
      (zigzag (side 1))[0]? = some (20, 20) ∧ (zigzag (side 1))[42 * 6]? = some (20, 8) ∧
      (zigzag (side 1))[42 * 7]? = some (0, 5) ∧ (zigzag (side 1))[419]? = some (20, 0) := by decide +kernel

/-- The first data cell carries bit 0 of the stream, and with no codewords it is beyond the stream. -/
theorem witness_DataBitsPlacedMasked :
    (dataCells 1 .L 0)[0]? = some (20, 20) ∧ 0 < 8 * [(0 : Byte)].length ∧ ¬ 0 < 8 * ([] : List Byte).length ∧
      (0 < side 1 ∧ functionGrid 1 .L 0 0 0 ≠ .unset) := by decide +kernel

theorem witness_CompletedSymbolHasNoUnset : (1 ≤ 1 ∧ 1 ≤ 40) ∧ 0 < side 1 ∧ 176 < side 40 := by decide

theorem witness_BuildStoresSymbol :
    ((loaded 1).AtVersion 1 ∧ (List.replicate (totalCodewords 1) (0 : Byte)).length = totalCodewords 1 ∧
      ∀ k, k < (List.replicate (totalCodewords 1) (0 : Byte)).length →
        (loaded 1).mem.read? (0x3000 + k) = (List.replicate (totalCodewords 1) (0 : Byte))[k]?) ∧
    ((loaded 40).AtVersion 40 ∧ (List.replicate (totalCodewords 40) (0 : Byte)).length = totalCodewords 40 ∧
      ∀ k, k < (List.replicate (totalCodewords 40) (0 : Byte)).length →
        (loaded 40).mem.read? (0x3000 + k) = (List.replicate (totalCodewords 40) (0 : Byte))[k]?) := by
  have key : ∀ v n k, n ≤ 4096 → k < (List.replicate n (0 : Byte)).length →
      (loaded v).mem.read? (0x3000 + k) = (List.replicate n (0 : Byte))[k]? := by
    intro v n k hn hk
    rw [List.length_replicate] at hk
    rw [List.getElem?_replicate, if_pos hk]
    exact loaded_read v _ (Or.inl (by omega))
  exact ⟨⟨loaded_version 1 (by decide) (by decide), by simp, fun k hk => key 1 _ k (by decide +kernel) hk⟩,
    loaded_version 40 (by decide) (by decide), by simp, fun k hk => key 40 _ k (by decide +kernel) hk⟩

theorem witness_MaskEvalResult : (0 + 0) % 2 = 0 ∧ ¬ (1 + 0) % 2 = 0 ∧ (255 * 255) % 2 + (255 * 255) % 3 ≠ 0 := by decide

theorem witness_BalancePenaltyRoundsDown :
    (0 : Nat) < 1 ∧ penalty4 false 218 441 = -2 ∧ IsRule4 false 218 441 (-2) :=
  ⟨by decide, by decide +kernel, -1, by decide +kernel⟩

/-- The conditions on P4 have one solution. -/
theorem isRule4_unique (abs : Bool) (k N : Nat) (hN : 0 < N) (a b : Int) (ha : IsRule4 abs k N a)
    (hb : IsRule4 abs k N b) : a = b := by
  obtain ⟨q, rfl, h1, h2⟩ := ha
  obtain ⟨q', rfl, h3, h4⟩ := hb
  have hN' : (0 : Int) < N := by exact_mod_cast hN
  have := lt_of_mul_lt_mul_right (h1.trans_lt h4) hN'.le
  have := lt_of_mul_lt_mul_right (h3.trans_lt h2) hN'.le
  omega

/-- A non-empty matrix has one score with one breakdown. -/
theorem isScore_unique (par : Params) (n : Nat) (f : Nat → Nat → Bool) (hn : 0 < n) (p q : Penalty)
    (hp : IsScore par n f p) (hq : IsScore par n f q) : p = q := by
  have h4 := isRule4_unique _ _ _ (Nat.mul_pos hn hn) _ _ hp.p4 hq.p4
  obtain ⟨a1, a2, a3, a4, ad, an⟩ := p
  obtain ⟨b1, b2, b3, b4, bd, bn⟩ := q
  obtain ⟨h1, h2, h3, -, hd, hs⟩ := hp
  obtain ⟨k1, k2, k3, -, kd, ks⟩ := hq
  simp only at h1 h2 h3 h4 hd hs k1 k2 k3 kd ks
  rw [h1, h2, h3, h4, hd, hs, k1, k2, k3, kd, ks]

/-- The two rows 10, 11 by R215 to R219: no run, block or pattern, three of four Dark. -/
theorem witness_IsScore :
    IsScore Params.default 2 (fun y x => decide (y = 1 ∨ x = 0))
      { p1 := 0, p2 := 0, p3 := 0, p4 := 50, dark := 3, size := 4 } :=
  ⟨by decide +kernel, by decide +kernel, by decide +kernel, ⟨25, by decide +kernel⟩, by decide +kernel, rfl⟩

/-- A 5 × 5 Dark square by R215 to R219: ten runs of 5, sixteen blocks. -/
theorem test_isScore_dark :
    IsScore Params.default 5 (fun _ _ => true)
      { p1 := 30, p2 := 48, p3 := 0, p4 := 100, dark := 25, size := 25 } :=
  ⟨by decide +kernel, by decide +kernel, by decide +kernel, ⟨50, by decide +kernel⟩, by decide +kernel, rfl⟩

theorem witness_ScoreFollowsRulesAndTransposition : 0 < 1 ∧ 0 < side 40 + 8 := by decide

/-- All cells Light, the whole domain written: by default and with the quiet zone. -/
theorem witness_ScoreReportsPenalty :
    ((loaded 1).AtVersion 1 ∧ (loaded 1).params.scoreIncludesQz = false ∧
      ∀ y x, y < side 1 → x < side 1 →
        (loaded 1).mem.read? (0x10000 + ((4 + y) * 185 + (4 + x))) = some 0) ∧
    (let s := { loaded 40 with params := { Params.default with scoreIncludesQz := true } }
     s.AtVersion 40 ∧ s.params.scoreIncludesQz = true ∧
      ∀ y x, y < side 40 + 8 → x < side 40 + 8 → s.mem.read? (0x10000 + ((0 + y) * 185 + (0 + x))) = some 0) := by
  refine ⟨⟨loaded_version 1 (by decide) (by decide), by rw [(loaded_fields 1).2.2.1]; rfl, fun y x hy hx =>
    loaded_read 1 _ (Or.inr ?_)⟩,
    loaded_version 40 (by decide) (by decide), rfl, fun y x hy hx => loaded_read 40 _ (Or.inr ?_)⟩
  · simp only [side] at hy hx; omega
  · simp only [side] at hy hx; omega

theorem witness_ScoreRefusesIncompleteGrid (c : Byte) (_ : c = 2 ∨ c = 3) :
    (spoiled c).AtVersion 1 ∧ 20 < side 1 ∧
      ∀ y x, y < side 1 → x < side 1 →
        (spoiled c).mem.read? (0x10000 + ((4 + y) * 185 + (4 + x))) =
          some (if y = 20 ∧ x = 20 then c else 0) := by
  refine ⟨⟨(loaded_version 1 (by decide) (by decide)).1, by decide, by decide⟩, by decide, fun y x hy hx => ?_⟩
  simp only [side] at hy hx
  refine (State.store_read? (loaded 1) .grid (24 * 185 + 24) [c] _).trans ?_
  split <;> rename_i h1 <;> simp only [Region.base, List.length_singleton] at h1
  · obtain ⟨rfl, rfl⟩ : y = 20 ∧ x = 20 := by omega
    rfl
  · rw [if_neg (by omega : ¬ (y = 20 ∧ x = 20))]
    exact loaded_read 1 _ (Or.inr (by omega))

theorem witness_AutoMaskKeepsFirstMinimum :
    (loaded 1).AtVersion 1 ∧ (List.replicate (totalCodewords 1) (0 : Byte)).length = totalCodewords 1 ∧
      ∀ k, k < (List.replicate (totalCodewords 1) (0 : Byte)).length →
        (loaded 1).mem.read? (0x3000 + k) = (List.replicate (totalCodewords 1) (0 : Byte))[k]? :=
  witness_BuildStoresSymbol.1

theorem autoMask_completes (s : State) (v : Nat) (cw : List Byte) (hv : s.AtVersion v)
    (hl : s.load .cw 0 (totalCodewords v) = some cw) : ∃ t, exec .autoMask s = .next t ∧ t.err = s.err := by
  have h := (autoMaskEffect_eq_some v s _).2 ⟨cw, hl, rfl⟩
  refine ⟨_, (withVersion_of_legal s v (fun v => complete (autoMaskEffect v s)) hv.1 hv.2.1 hv.2.2).trans
    ((complete_eq_next _ _).2 ⟨_, h, rfl⟩), ?_⟩
  generalize (Vector.ofFn fun m => candidateScore s.params v s.level cw m) = scores
  rfl

/-- AUTO_MASK completes on `loaded 1`, without an error. -/
theorem witness_RescoringConfirmsAutoMask :
    (loaded 1).err = false ∧ ∃ t, exec .autoMask (loaded 1) = .next t ∧ t.err = false := by
  have hT : totalCodewords 1 ≤ 4096 := by decide +kernel
  have hl := loaded_load 1 .cw 0 (totalCodewords 1) (fun k hk => Or.inl (by simp only [Region.base]; omega))
  obtain ⟨t, h, he⟩ := autoMask_completes _ 1 _ (loaded_version 1 (by decide) (by decide)) hl
  exact ⟨(loaded_fields 1).2.2.2, t, h, he.trans (loaded_fields 1).2.2.2⟩

/-- Every byte of DATA, ECC and CW has been written. -/
def AllWritten (s : State) : Prop := ∀ a, 0x1000 ≤ a → a < 0x4000 → (s.mem.read? a).isSome = true

theorem allWritten_store (s : State) (r : Region) (i : Nat) (bs : List Byte) (h : AllWritten s) :
    AllWritten (s.store r i bs) := by
  intro a ha1 ha2
  rw [State.store_read?]
  split
  · rw [List.getElem?_eq_getElem (by omega)]; rfl
  · exact h a ha1 ha2

theorem allWritten_blocks (s : State) (h : AllWritten s) :
    (∃ d, s.dataBlocks 1 .L = some d) ∧ (∃ e, s.eccBlocks 1 .L = some e) ∧
      ∃ cw, s.load .cw 0 (totalCodewords 1) = some cw := by
  have hbnd : ∀ b, b < blockCount 1 .L → blockStart 1 .L b + blockLength 1 .L b ≤ 4096 := by decide +kernel
  have hecc : ∀ b, b < blockCount 1 .L → b * eccPerBlock 1 .L + eccPerBlock 1 .L ≤ 4096 := by decide +kernel
  have hT : totalCodewords 1 ≤ 4096 := by decide +kernel
  have load : ∀ (r : Region) (i n : Nat), r = .data ∨ r = .ecc ∨ r = .cw → i + n ≤ 4096 →
      ∃ bs, s.load r i n = some bs := by
    intro r i n hr hn
    refine Option.isSome_iff_exists.1 ((State.load_isSome _ _ _ _).2 fun k hk => h _ ?_ ?_) <;>
      rcases hr with rfl | rfl | rfl <;> simp only [Region.base] <;> omega
  have gathered : ∀ (f : Nat → Option (List Byte)), (∀ b, b < blockCount 1 .L → ∃ bs, f b = some bs) →
      ∃ l, gather f (List.range (blockCount 1 .L)) = some l := by
    intro f hf
    rcases Option.eq_none_or_eq_some (gather f (List.range (blockCount 1 .L))) with hg | hg
    · obtain ⟨b, hb, hn⟩ := (gather_eq_none _ _).1 hg
      obtain ⟨bs, hbs⟩ := hf b (by simpa using hb)
      rw [hn] at hbs; exact absurd hbs (by simp)
    · exact hg
  exact ⟨gathered _ fun b hb => load _ _ _ (.inl rfl) (hbnd b hb),
    gathered _ fun b hb => load _ _ _ (.inr (.inl rfl)) (hecc b hb), load _ _ _ (.inr (.inr rfl)) (by omega)⟩

theorem eccBlocks_completes (s : State) (hv : s.AtVersion 1) (hl : s.level = .L) (h : AllWritten s) :
    ∃ a, exec .eccBlocks s = .next a ∧ a.AtVersion 1 ∧ a.level = .L ∧ AllWritten a := by
  obtain ⟨⟨d, hd⟩, -, -⟩ := allWritten_blocks s h
  exact ⟨_, (withVersion_of_legal s 1 (fun v => complete (eccBlocksEffect v s)) hv.1 hv.2.1 hv.2.2).trans
    ((complete_eq_next _ _).2 ⟨_, (eccBlocksEffect_eq_some _ _ _).2 ⟨d, by rw [hl]; exact hd, rfl⟩, rfl⟩), hv, hl,
    allWritten_store s _ _ _ h⟩

theorem interleave_completes (s : State) (hv : s.AtVersion 1) (hl : s.level = .L) (h : AllWritten s) :
    ∃ a, exec .interleave s = .next a ∧ a.AtVersion 1 ∧ a.level = .L ∧ AllWritten a := by
  obtain ⟨⟨d, hd⟩, ⟨e, he⟩, -⟩ := allWritten_blocks s h
  exact ⟨_, (withVersion_of_legal s 1 (fun v => complete (interleaveEffect v s)) hv.1 hv.2.1 hv.2.2).trans
    ((complete_eq_next _ _).2 ⟨_, (interleaveEffect_eq_some _ _ _).2
      ⟨d, e, by rw [hl]; exact hd, by rw [hl]; exact he, rfl⟩, rfl⟩), hv, hl, allWritten_store s _ _ _ h⟩

theorem build_completes (s : State) (m : MaskId) (hv : s.AtVersion 1) (h : AllWritten s) :
    ∃ t, exec (.build m) s = .next t := by
  obtain ⟨-, -, cw, hcw⟩ := allWritten_blocks s h
  exact ⟨_, (withVersion_of_legal s 1 (fun v => complete (buildEffect m v s)) hv.1 hv.2.1 hv.2.2).trans
    ((complete_eq_next _ _).2 ⟨_, (buildEffect_eq_some _ _ _ _).2 ⟨cw, hcw, rfl⟩, rfl⟩)⟩

theorem loaded_allWritten (v : Nat) : AllWritten (loaded v) := fun a h1 h2 => by
  rw [loaded_read v a (Or.inl ⟨h1, h2⟩)]; rfl

/-- The parts of GENERATE and GENERATE.AUTO complete on `loaded 1` one after the other. -/
theorem witness_GenerateIsComposition :
    ∃ a b c d, exec .eccBlocks (loaded 1) = .next a ∧ exec .interleave a = .next b ∧
      exec (.build 0) b = .next c ∧ exec .autoMask b = .next d := by
  obtain ⟨a, ha, hv, hl, hw⟩ := eccBlocks_completes _ (loaded_version 1 (by decide) (by decide))
    (loaded_fields 1).2.1 (loaded_allWritten 1)
  obtain ⟨b, hb, hv', hl', hw'⟩ := interleave_completes a hv hl hw
  obtain ⟨c, hc⟩ := build_completes b 0 hv' hw'
  obtain ⟨-, -, cw, hcw⟩ := allWritten_blocks b hw'
  obtain ⟨d, hd, -⟩ := autoMask_completes b 1 cw hv' hcw
  exact ⟨a, b, c, d, ha, hb, hc, hd⟩

theorem witness_GenerateCompletes :
    (loaded 40).AtVersion 40 ∧ (loaded 40).Holds .data (dataCodewords 40 (loaded 40).level) fun _ => 0 :=
  witness_EccBlocksWritesRemainders.2

theorem generate_completes (s : State) (m : MaskId) (hv : s.AtVersion 1) (hl : s.level = .L) (h : AllWritten s) :
    ∃ t, exec (.generate m) s = .next t := by
  obtain ⟨⟨d, hd⟩, -, -⟩ := allWritten_blocks s h
  have h1 := allWritten_store s .ecc 0 (d.flatMap fun blk => rsRemainder s.params.gfPoly blk (eccPerBlock 1 s.level)) h
  obtain ⟨⟨d', hd'⟩, ⟨e', he'⟩, -⟩ := allWritten_blocks _ h1
  have h2 := allWritten_store _ .cw 0 (interleaveBlocks 1 .L d' e') h1
  obtain ⟨-, -, cw, hcw⟩ := allWritten_blocks _ h2
  refine ⟨_, (withVersion_of_legal s 1 (fun v => complete ((encodeEffect v s).bind (buildEffect m v)))
    hv.1 hv.2.1 hv.2.2).trans ((complete_eq_next _ _).2 ⟨_, Option.bind_eq_some_iff.2
      ⟨_, (encodeEffect_eq_some _ _ _).2 ⟨_, (eccBlocksEffect_eq_some _ _ _).2 ⟨d, by rw [hl]; exact hd, rfl⟩,
        (interleaveEffect_eq_some _ _ _).2 ⟨d', e', ?_, ?_, rfl⟩⟩,
        (buildEffect_eq_some _ _ _ _).2 ⟨cw, ?_, rfl⟩⟩, rfl⟩)⟩
  · rw [show (State.store _ _ _ _).level = Level.L from hl]; exact hd'
  · rw [show (State.store _ _ _ _).level = Level.L from hl]; exact he'
  · rw [show (State.store _ _ _ _).level = Level.L from hl]; exact hcw

/-- Two states that agree on the payload and differ in CW's first byte and in SCORE; GENERATE completes in both. -/
theorem witness_SymbolDependsOnPayloadOnly :
    let s := loaded 1
    let s' := { (loaded 1).store .cw 0 [7] with score := 9 }
    s.AtVersion 1 ∧ s'.AtVersion 1 ∧ s.ecl = s'.ecl ∧ s.params = s'.params ∧
      (s.Holds .data (dataCodewords 1 s.level) fun _ => 0) ∧ (s'.Holds .data (dataCodewords 1 s'.level) fun _ => 0) ∧
      ∃ t t', exec (.generate 3) s = .next t ∧ exec (.generate 3) s' = .next t' := by
  have hv := loaded_version 1 (by decide) (by decide)
  have hl := (loaded_fields 1).2.1
  have hD : dataCodewords 1 (loaded 1).level ≤ 4096 := by rw [hl]; decide +kernel
  obtain ⟨t, ht⟩ := generate_completes (loaded 1) 3 hv hl (loaded_allWritten 1)
  obtain ⟨t', ht'⟩ := generate_completes { (loaded 1).store .cw 0 [7] with score := 9 } 3 hv hl
    (allWritten_store (loaded 1) .cw 0 [7] (loaded_allWritten 1))
  refine ⟨hv, hv, rfl, rfl, loaded_holds 1 _ _ (.inl rfl) hD, fun i hi => ?_, t, t', ht, ht'⟩
  have hi : i < 4096 := Nat.lt_of_lt_of_le hi hD
  refine (State.store_read? (loaded 1) .cw 0 [7] _).trans ?_
  rw [if_neg (by simp only [Region.base]; omega)]
  exact loaded_read 1 _ (Or.inl (by simp only [Region.base]; omega))

theorem witness_CommandsWriteOnlyTheirTargets :
    (Instr.genPoly 255).WellFormed ∧ (∃ t, exec (.genPoly 255) State.reset = .next t) ∧
      Region.data ∉ writtenRegions (.genPoly 255) ∧ 4095 < Region.data.size ∧ 34303 < Region.grid.size ∧
      Instr.genPoly 255 ≠ .sreset ∧ writesResult (.genPoly 255) = false ∧ writesMaskSel (.genPoly 255) = false ∧
      writesScore (.genPoly 255) = false ∧ writesScoreM (.genPoly 255) = false :=
  ⟨by decide, ⟨_, rfl⟩, by decide, by decide, by decide, by decide, by decide, by decide, by decide, by decide⟩

theorem witness_ErrorsArePrecise :
    State.reset.err = false ∧ State.reset.errCode = 0 ∧
      (∃ t, exec (.gfInv 0) State.reset = .next t ∧ t.err = true) ∧
      ∃ t, exec (.gfInv 1) State.reset = .next t ∧ t.err = false := ⟨rfl, rfl, ⟨_, rfl, rfl⟩, _, rfl, rfl⟩

theorem witness_PendingCommandReleasesBusyOrFaults : (waiting 0).faulted = false ∧ (waiting 0).busy = true := by decide

/-- Both ends of the address map's windows, and an address of no window. -/
theorem witness_BusErrorsExactly :
    IsRegisterAddr 0x08C ∧ ¬ IsRegisterAddr 0x038 ∧ ¬ IsRegisterAddr 0x090 ∧ IsRegionAddr 0x1000 ∧ IsRegionAddr 0x40FC ∧
      ¬ IsRegionAddr 0x4100 ∧ IsRegionAddr 0x10000 ∧ IsRegionAddr 0x185FC ∧ ¬ IsRegionAddr 0x18600 ∧
      (State.reset.busRead 0x4100).1 = .error ∧ (State.reset.busRead 0x40FC).1 = .okay ∧
      ((waiting 0).busWrite 0x10000 0 0b1111).1 = .error ∧ ((waiting 0).busWrite 0x068 0 0b1111).1 = .error := by
  unfold IsRegisterAddr IsRegionAddr; decide +kernel

theorem witness_RegisterWriteEffects :
    State.reset.busy = false ∧ IsRegisterAddr (0x000 : Addr).toNat ∧ IsRegisterAddr (0x08C : Addr).toNat ∧
      (0x08C : Addr).toNat ∉ [0x004, 0x008, 0x00C, 0x010, 0x060, 0x064, 0x068] := by
  unfold IsRegisterAddr; decide

theorem witness_CmdWriteAcceptsOrOverruns : State.reset.busy = false ∧ (waiting 0).busy = true := by decide

theorem witness_RegisterReadsExact : State.reset.busy = false ∧ (waiting 0x51).busy = true := by decide

theorem witness_InfoRegistersDecodeCfg :
    (configured 1 0).AtVersion 1 ∧ (configured 40 3).AtVersion 40 ∧ (configured 0 0).version.toNat = 0 ∧
      41 ≤ (configured 41 0).version.toNat ∧ 41 ≤ (configured 63 3).version.toNat :=
  ⟨configured_atVersion.1, configured_atVersion.2, by decide, by decide, by decide⟩

theorem witness_RegionWriteStoresLanes :
    (0x1000 : Addr).toNat % 4 = 0 ∧ IsRegionAddr (0x1000 : Addr).toNat ∧ (0x185FC : Addr).toNat % 4 = 0 ∧
      IsRegionAddr (0x185FC : Addr).toNat ∧ State.reset.busy = false := by
  unfold IsRegionAddr; decide

/-- A written byte, GRID's padding and an unwritten GRID cell in one word each, at the last frame cell 34224. -/
theorem witness_RegionReadGivesWord :
    let s := State.reset.store .grid 34224 [1]
    (0x185B0 : Addr).toNat % 4 = 0 ∧ IsRegionAddr (0x185B0 : Addr).toNat ∧ s.busy = false ∧
      s.mem.read? ((0x185B0 : Addr).toNat + 0) = some 1 ∧ (0x185B0 : Addr).toNat + 0 < 0x10000 + 34225 ∧
      0x10000 + 34225 ≤ (0x185B0 : Addr).toNat + 1 ∧ s.mem.read? ((0x10000 : Addr).toNat + 3) = none := by
  unfold IsRegionAddr; decide +kernel

theorem witness_HardResetState :
    (let s := { waiting 0 with events := [.rst true, .rst false] }
     s.faulted = false ∧ s.events = .rst true :: [.rst false]) ∧
    (let s := { State.reset with rst := true, events := [.host (.read 0)] }
     s.faulted = false ∧ s.rst = true ∧ s.events = .host (.read 0) :: []) := ⟨⟨rfl, rfl⟩, rfl, rfl, rfl⟩

theorem witness_InterruptFollowsDone :
    (∃ t, exec .nop State.reset = .next t) ∧ (0x2 : Word).getLsbD 1 = true ∧ (0 : Word).getLsbD 0 = false ∧
      State.reset.busy = false := ⟨⟨_, rfl⟩, by decide, by decide, by decide⟩

/-- A state with a pending command meets the invariant, and its next step completes the command. -/
theorem witness_StepKeepsInvariant :
    (waiting 0).Inv ∧ ∃ t, step (waiting 0) = .next t ∧ t.busy = false := by
  refine ⟨?_, _, rfl, rfl⟩
  constructor <;> simp [waiting, State.accept, State.reset, Memory.wf, State.busy]

end Sys2Proof.Machine
end

section
/-! SUPPORT. The ring laws of the field multiplication at every reduction polynomial (R110, R117), and EXP, LOG and inverses where 2 is primitive (R111 to R116). -/

namespace Sys2Proof.Machine

/-! ## Multiplication by Horner's rule -/

/-- One step of Horner's rule for `gfMul p a b`: the bit i of `b`. -/
def hornerStep (p : BitVec 9) (a b acc : Byte) (i : Nat) : Byte :=
  xtime p acc ^^^ (if b.getLsbD i then a else 0)

theorem gfMul_eq_foldl (p : BitVec 9) (a b : Byte) :
    gfMul p a b = [7, 6, 5, 4, 3, 2, 1, 0].foldl (hornerStep p a b) 0 := rfl

theorem ite_xor (x y : Bool) (c : Byte) :
    (if x ^^ y then c else 0) = (if x then c else 0) ^^^ (if y then c else 0) := by
  cases x <;> cases y <;> simp

@[simp] theorem xtime_zero (p : BitVec 9) : xtime p 0#8 = 0#8 := by simp [xtime]

theorem xtime_one (p : BitVec 9) : xtime p 1 = 2 := by simp [xtime]

/-- Multiplication by 2 is additive. -/
theorem xtime_xor (p : BitVec 9) (a b : Byte) : xtime p (a ^^^ b) = xtime p a ^^^ xtime p b := by
  unfold xtime
  rw [BitVec.shiftLeft_xor_distrib, BitVec.getLsbD_xor, ite_xor]
  ac_rfl

theorem gfMul_xor_right (p : BitVec 9) (a b c : Byte) :
    gfMul p a (b ^^^ c) = gfMul p a b ^^^ gfMul p a c := by
  simp only [gfMul_eq_foldl]
  refine List.foldl_hom₂ _ (· ^^^ ·) _ _ (hornerStep p a (b ^^^ c)) 0 0 fun x y i => ?_
  simp only [hornerStep, xtime_xor, BitVec.getLsbD_xor, ite_xor]
  ac_rfl

theorem gfMul_xor_left (p : BitVec 9) (a b c : Byte) :
    gfMul p (a ^^^ b) c = gfMul p a c ^^^ gfMul p b c := by
  simp only [gfMul_eq_foldl]
  refine List.foldl_hom₂ _ (· ^^^ ·) _ _ (hornerStep p (a ^^^ b) c) 0 0 fun x y i => ?_
  simp only [hornerStep, xtime_xor]
  split
  · ac_rfl
  · simp

/-- Doubling the left operand doubles the product. -/
theorem gfMul_xtime_left (p : BitVec 9) (a b : Byte) : gfMul p (xtime p a) b = xtime p (gfMul p a b) := by
  simp only [gfMul_eq_foldl]
  conv_lhs => rw [show (0 : Byte) = xtime p 0 from (xtime_zero p).symm]
  refine List.foldl_hom (xtime p) fun x i => ?_
  rw [hornerStep, hornerStep, xtime_xor]
  split <;> simp

@[simp] theorem gfMul_zero_right (p : BitVec 9) (a : Byte) : gfMul p a 0#8 = 0#8 := by
  simp [gfMul_eq_foldl, hornerStep]

@[simp] theorem gfMul_zero_left (p : BitVec 9) (b : Byte) : gfMul p 0#8 b = 0#8 := by
  simp [gfMul_eq_foldl, hornerStep]

@[simp] theorem gfMul_one_right (p : BitVec 9) (a : Byte) : gfMul p a 1#8 = a := by
  simp [gfMul_eq_foldl, hornerStep]

/-- Horner's rule with the operand 1 takes the bits of `b` in from the top, and nothing is reduced. -/
theorem hornerStep_one_ushiftRight (p : BitVec 9) (b : Byte) (i : Nat) :
    hornerStep p 1 b (b >>> (i + 1)) i = b >>> i := by
  have h7 : (b >>> (i + 1)).getLsbD 7 = false := by
    rw [BitVec.getLsbD_ushiftRight]; exact BitVec.getLsbD_of_ge _ _ (by omega)
  rw [hornerStep, xtime, h7]
  refine BitVec.eq_of_getLsbD_eq fun j hj => ?_
  cases j with
  | zero => cases h : b.getLsbD i <;> simp [h]
  | succ j =>
    have e : i + 1 + j = i + (j + 1) := by omega
    cases b.getLsbD i <;> simp [e] <;> omega

/-- 1 is the unit on the left too: the eight steps take `b` in whole. -/
@[simp] theorem gfMul_one_left (p : BitVec 9) (b : Byte) : gfMul p 1#8 b = b := by
  have h0 : (0 : Byte) = b >>> (7 + 1) := BitVec.eq_of_toNat_eq (by simp; omega)
  calc gfMul p 1 b = [7, 6, 5, 4, 3, 2, 1, 0].foldl (hornerStep p 1 b) (b >>> (7 + 1)) := by
        rw [gfMul_eq_foldl, h0]
    _ = b >>> 0 := by simp only [List.foldl_cons, List.foldl_nil, hornerStep_one_ushiftRight]
    _ = b := by simp

/-- Every byte comes from 0 by doubling and adding 1: induction on a byte along Horner's rule. -/
theorem byte_induction (p : BitVec 9) {motive : Byte → Prop} (zero : motive 0)
    (double : ∀ a, motive a → motive (xtime p a)) (addOne : ∀ a, motive a → motive (a ^^^ 1)) (b : Byte) :
    motive b := by
  rw [← gfMul_one_left p b]
  refine List.foldlRecOn (motive := motive) _ (hornerStep p 1 b) zero fun acc h i _ => ?_
  rw [hornerStep]
  split
  · exact addOne _ (double _ h)
  · simpa using double _ h

/-! ## The ring laws -/

theorem gfMul_xtime_right (p : BitVec 9) (a b : Byte) : gfMul p a (xtime p b) = xtime p (gfMul p a b) := by
  induction a using byte_induction p with
  | zero => simp
  | double a ih => rw [gfMul_xtime_left, gfMul_xtime_left, ih]
  | addOne a ih => simp [gfMul_xor_left, xtime_xor, ih]

theorem gfMul_comm (p : BitVec 9) (a b : Byte) : gfMul p a b = gfMul p b a := by
  induction a using byte_induction p with
  | zero => simp
  | double a ih => rw [gfMul_xtime_left, gfMul_xtime_right, ih]
  | addOne a ih => simp [gfMul_xor_left, gfMul_xor_right, ih]

theorem gfMul_assoc (p : BitVec 9) (a b c : Byte) : gfMul p (gfMul p a b) c = gfMul p a (gfMul p b c) := by
  induction a using byte_induction p with
  | zero => simp
  | double a ih => rw [gfMul_xtime_left, gfMul_xtime_left, gfMul_xtime_left, ih]
  | addOne a ih => simp [gfMul_xor_left, ih]

/-- The product with 2 is a step of EXP's recurrence (R110, R111). -/
theorem gfMul_two_right (p : BitVec 9) (a : Byte) : gfMul p a 2 = xtime p a := by
  rw [← xtime_one p, gfMul_xtime_right]; simp

/-- Two inverses of one element are equal. -/
theorem gfMul_inverse_unique (p : BitVec 9) (a b c : Byte) (hb : gfMul p a b = 1) (hc : gfMul p a c = 1) :
    c = b :=
  calc c = gfMul p (gfMul p a b) c := by simp [hb]
    _ = gfMul p b (gfMul p a c) := by rw [gfMul_comm p a b, gfMul_assoc]
    _ = b := by simp [hc]

/-- Exponents add. -/
theorem power_add (p : BitVec 9) (i j : Nat) : power p (i + j) = gfMul p (power p i) (power p j) := by
  induction j with
  | zero => simp [power]
  | succ j ih => rw [← Nat.add_assoc, power, ih, power, gfMul_xtime_right]

/-- The places of a list's entries that equal `a`, where there is one. -/
theorem filter_zipIdx_eq_singleton {α : Type} [DecidableEq α] (l : List α) (a : α) (i : Nat)
    (h : l[i]? = some a) (hu : ∀ j, l[j]? = some a → j = i) :
    (l.zipIdx.filter fun c => c.1 = a) = [(a, i)] := by
  have hd : (l.zipIdx.filter fun c => c.1 = a).Nodup := (List.nodup_zipIdx_map_snd l).of_map.filter _
  refine List.perm_singleton.1 ((List.perm_ext_iff_of_nodup hd (List.nodup_singleton _)).2 fun ⟨b, j⟩ => ?_)
  rw [List.mem_filter, List.mem_zipIdx_iff_getElem?, List.mem_singleton, Prod.mk.injEq, decide_eq_true_eq]
  constructor
  · rintro ⟨hj, rfl⟩
    exact ⟨rfl, hu j hj⟩
  · rintro ⟨rfl, rfl⟩
    exact ⟨h, rfl⟩

/-! ## EXP where 2 is primitive -/

theorem expEntry_eq_power (p : BitVec 9) (i : Nat) : expEntry p i = power p i := (power_eq_iterate p i).symm

namespace IsPrimitive

variable {p : BitVec 9} (hp : IsPrimitive p)
include hp

theorem exists_power {a : Byte} (ha : a ≠ 0) : ∃ i, i < 255 ∧ power p i = a := by
  obtain ⟨i, hi, h, -⟩ := hp a ha
  exact ⟨i, hi, by rw [← expEntry_eq_power, h]⟩

theorem power_injective {i j : Nat} (hi : i < 255) (hj : j < 255) (h0 : power p i ≠ 0)
    (h : power p i = power p j) : i = j := by
  obtain ⟨k, -, -, hk⟩ := hp _ h0
  rw [hk i hi (expEntry_eq_power p i), hk j hj (by rw [expEntry_eq_power, h])]

/-- 2 is invertible: 3 is a power of 2 other than 1, so 2 divides 3 + 2 = 1. -/
theorem exists_half : ∃ y, xtime p y = 1 := by
  obtain ⟨k, -, hk⟩ := hp.exists_power (a := 3) (by decide)
  cases k with
  | zero => exact absurd hk (show (1 : Byte) ≠ 3 by decide)
  | succ k =>
    refine ⟨power p k ^^^ 1, ?_⟩
    rw [xtime_xor, xtime_one, show xtime p (power p k) = 3 from hk]; rfl

theorem xtime_injective : Function.Injective (xtime p) := by
  obtain ⟨y, hy⟩ := hp.exists_half
  have undo : Function.LeftInverse (gfMul p · y) (xtime p) := fun a => by
    dsimp only; rw [gfMul_xtime_left, ← gfMul_xtime_right, hy]; simp
  exact undo.injective

theorem power_ne_zero (i : Nat) : power p i ≠ 0 := by
  induction i with
  | zero => exact show (1 : Byte) ≠ 0 by decide
  | succ i ih => exact fun h => ih (hp.xtime_injective (h.trans (xtime_zero p).symm))

/-- The powers of 2 return to 1 after 255 steps: an earlier return to EXP[k + 1] would repeat EXP[k] at 254. -/
theorem power_255 : power p 255 = 1 := by
  obtain ⟨k, hk, h⟩ := hp.exists_power (hp.power_ne_zero 255)
  cases k with
  | zero => exact h.symm
  | succ k =>
    have h' : power p k = power p 254 := hp.xtime_injective h
    have := hp.power_injective (by omega) (by decide) (hp.power_ne_zero k) h'
    omega

theorem power_mod (n : Nat) : power p (n % 255) = power p n := by
  induction n using Nat.strong_induction_on with
  | _ n ih =>
    rcases Nat.lt_or_ge n 255 with h | h
    · rw [Nat.mod_eq_of_lt h]
    · obtain ⟨m, rfl⟩ := Nat.exists_eq_add_of_le h
      rw [Nat.add_mod_left, ih m (by omega), power_add, hp.power_255]; simp

/-! ## LOG and inverses where 2 is primitive -/

/-- LOG finds the one exponent of a power of 2 (R112). -/
theorem gfLog_power {i : Nat} (hi : i < 255) : gfLog p (power p i) = BitVec.ofNat 8 i := by
  have found := filter_zipIdx_eq_singleton (powersFrom p 255 1) (power p i) i (powersFrom_one p 255 i hi)
    fun j hj => by
      have hj' : j < 255 := by simpa using (List.getElem?_eq_some_iff.1 hj).1
      rw [powersFrom_one p 255 j hj', Option.some.injEq] at hj
      exact hp.power_injective hj' hi (hp.power_ne_zero j) hj
  rw [gfLog, found]

theorem gfLog_spec {a : Byte} (ha : a ≠ 0) : (gfLog p a).toNat < 255 ∧ power p (gfLog p a).toNat = a := by
  obtain ⟨i, hi, rfl⟩ := hp.exists_power ha
  rw [hp.gfLog_power hi, BitVec.toNat_ofNat, Nat.mod_eq_of_lt (by omega)]
  exact ⟨hi, rfl⟩

theorem gfMul_gfInv {a : Byte} (ha : a ≠ 0) : gfMul p a (gfInv p a) = 1 := by
  obtain ⟨hl, hpow⟩ := hp.gfLog_spec ha
  calc gfMul p a (gfInv p a)
      = gfMul p (power p (gfLog p a).toNat) (power p (255 - (gfLog p a).toNat)) := by
        rw [gfInv, gfExp, hp.power_mod, hpow]
    _ = 1 := by rw [← power_add, Nat.add_sub_of_le (by omega), hp.power_255]

end IsPrimitive

/-! ## The commands -/

theorem exec_gfMul (a b : Byte) (s : State) :
    exec (.gfMul a b) s = .next (s.setResult (gfMul s.params.gfPoly a b)).finish := rfl

theorem exec_gfInv {a : Byte} (ha : a ≠ 0) (s : State) :
    exec (.gfInv a) s = .next (s.setResult (gfInv s.params.gfPoly a)).finish := if_neg ha

theorem exec_gfLog {a : Byte} (ha : a ≠ 0) (s : State) :
    exec (.gfLog a) s = .next (s.setResult (gfLog s.params.gfPoly a)).finish := if_neg ha

/-- Settles O10, by Horner's rule, and by adding exponents where 2 is primitive. -/
theorem gfMulResult : Obligations.GfMulResult := by
  refine ⟨exec_gfMul, ?_, gfMul_two_right, witness_IsPrimitive.1, fun p hp => ⟨fun i j _ _ => ?_, fun a ha => ?_⟩⟩
  · rintro p a b (rfl | rfl) <;> simp
  · rw [expEntry_eq_power, expEntry_eq_power, expEntry_eq_power, hp.power_mod, power_add]
  · rw [expEntry_eq_power]
    exact hp.gfLog_spec ha

/-- Settles O11: EXP[255 − LOG[a]] is an inverse, and a commutative product has at most one. -/
theorem gfInvResult : Obligations.GfInvResult := fun a s ha =>
  ⟨gfInv s.params.gfPoly a, exec_gfInv ha s, fun hp => ⟨hp.gfMul_gfInv ha, fun c => gfMul_inverse_unique _ a _ c (hp.gfMul_gfInv ha)⟩⟩

/-- Settles O13: LOG finds the exponent, and no other exponent below 255 has the same power. -/
theorem gfLogResult : Obligations.GfLogResult := by
  refine fun a s ha => ⟨gfLog s.params.gfPoly a, exec_gfLog ha s, fun hp => ?_⟩
  obtain ⟨hl, hpow⟩ := hp.gfLog_spec ha
  refine ⟨hl, by rw [expEntry_eq_power, hpow], fun i hi h => ?_⟩
  rw [expEntry_eq_power] at h
  exact hp.power_injective hi hl (hp.power_ne_zero i) (h.trans hpow.symm)

/-- Settles O14: the ring laws by Horner's rule, the others by the period 255 of the powers of 2. -/
theorem fieldLaws : Obligations.FieldLaws := by
  refine ⟨fun p a b c => ⟨BitVec.xor_comm a b, BitVec.xor_assoc a b c, gfMul_comm p a b, gfMul_assoc p a b c,
    gfMul_xor_right p a b c, BitVec.xor_self, gfMul_one_right p a, gfMul_zero_right p a⟩,
    fun p hp => ⟨fun a ha => ⟨hp.gfMul_gfInv ha, ?_⟩, fun n => ?_⟩⟩
  · rw [gfExp, hp.power_mod, (hp.gfLog_spec ha).2]
  · rw [gfExp, hp.gfLog_power (Nat.mod_lt n (by decide)), BitVec.toNat_ofNat]
    omega

end Sys2Proof.Machine
end

section
/-! SUPPORT. The symbol GENERATE produces is a function of CFG, the parameters and the payload (R5, R242, R243): states that agree there are carried, effect by effect, to states that agree on everything written. -/

namespace Sys2Proof.Machine

/-! ## The blocks tile the payload and the codeword sequence (R148, R160) -/

/-- Each block begins where the one before ends (R148). -/
theorem blockStart_succ (v : Nat) (lv : Level) (b : Nat) :
    blockStart v lv (b + 1) = blockStart v lv b + blockLength v lv b := by
  rw [blockStart, blockStart, blockLength, Nat.succ_mul]
  split <;> omega

/-- The last block ends with the data codewords (R146, R148). -/
theorem blockStart_blockCount (v : Nat) (lv : Level) (h1 : 1 ≤ v) (h2 : v ≤ 40) :
    blockStart v lv (blockCount v lv) = dataCodewords v lv := by
  obtain ⟨-, -, -, -, -, h, -⟩ := capacity_bounds v h1 h2 lv
  exact h

theorem blockStart_add_blockLength_le (v : Nat) (lv : Level) (h1 : 1 ≤ v) (h2 : v ≤ 40) (b : Nat)
    (hb : b < blockCount v lv) : blockStart v lv b + blockLength v lv b ≤ dataCodewords v lv := by
  rw [← blockStart_succ, ← blockStart_blockCount v lv h1 h2]
  exact monotone_nat_of_le_succ (fun k => by rw [blockStart_succ]; omega) hb

theorem sum_blockLength (v : Nat) (lv : Level) (n : Nat) :
    ((List.range n).map (blockLength v lv)).sum = blockStart v lv n := by
  induction n with
  | zero => simp [blockStart]
  | succ n ih => rw [List.range_succ, List.map_append, List.sum_append, ih, blockStart_succ]; simp

theorem gather_congr {α β : Type} (f g : α → Option β) (l : List α) (h : ∀ a ∈ l, f a = g a) :
    gather f l = gather g l := by
  induction l with
  | nil => rfl
  | cons a as ih => rw [gather, gather, h a (by simp), ih fun b hb => h b (by simp [hb])]

/-- What each read of a gathering says of its value, read off the gathered list. -/
theorem gather_map {α β γ : Type} (f : α → Option β) (g : β → γ) (k : α → γ)
    (hf : ∀ a b, f a = some b → g b = k a) (l : List α) (bs : List β) (h : gather f l = some bs) :
    bs.map g = l.map k := by
  rw [gather_eq_some] at h
  induction l generalizing bs with
  | nil => cases bs <;> simp at h ⊢
  | cons a as ih =>
    cases bs with
    | nil => simp at h
    | cons b bs =>
      rw [List.map_cons, List.map_cons, List.cons.injEq] at h
      rw [List.map_cons, List.map_cons, hf a b h.1, ih bs h.2]

theorem State.dataBlocks_lengths (s : State) (v : Nat) (lv : Level) (d : List (List Byte))
    (h : s.dataBlocks v lv = some d) : d.map List.length = (List.range (blockCount v lv)).map (blockLength v lv) :=
  gather_map _ _ _ (fun _ bs hb => ((s.load_eq_some _ _ _ bs).1 hb).1) _ _ h

theorem State.eccBlocks_lengths (s : State) (v : Nat) (lv : Level) (e : List (List Byte))
    (h : s.eccBlocks v lv = some e) : e.map List.length = (List.range (blockCount v lv)).map fun _ => eccPerBlock v lv :=
  gather_map _ _ _ (fun _ bs hb => ((s.load_eq_some _ _ _ bs).1 hb).1) _ _ h

theorem sum_map_range_ite (n len : Nat) :
    ((List.range n).map fun i => if i < len then 1 else 0).sum = min n len := by
  induction n with
  | zero => simp
  | succ n ih => rw [List.range_succ, List.map_append, List.sum_append, ih]; simp; split <;> omega

/-- Interleaving keeps every byte of blocks of at most n bytes (R160). -/
theorem interleaved_length (n : Nat) (blocks : List (List Byte)) (h : ∀ blk ∈ blocks, blk.length ≤ n) :
    (interleaved n blocks).length = (blocks.map List.length).sum := by
  unfold interleaved
  rw [List.length_flatMap]
  induction blocks with
  | nil => simp
  | cons blk bs ih =>
    have step : ∀ i, ((blk :: bs).filterMap (·[i]?)).length =
        (if i < blk.length then 1 else 0) + (bs.filterMap (·[i]?)).length := by
      intro i
      by_cases hi : i < blk.length
      · simp [hi, Nat.add_comm]
      · simp [hi]
    simp only [step]
    rw [List.sum_map_add, sum_map_range_ite, ih fun b hb => h b (by simp [hb]), List.map_cons, List.sum_cons,
      Nat.min_eq_right (h blk (by simp))]

theorem length_le_of_map_length {α : Type} (blocks : List (List Byte)) (k : α → Nat) {l : List α}
    (h : blocks.map List.length = l.map k) (n : Nat) (hk : ∀ a, k a ≤ n) : ∀ blk ∈ blocks, blk.length ≤ n := by
  intro blk hb
  have hm := List.mem_map_of_mem (f := List.length) hb
  rw [h, List.mem_map] at hm
  obtain ⟨a, -, ha⟩ := hm
  exact ha ▸ hk a

/-- The interleaved sequence has T codewords (R146, R160). -/
theorem interleaveBlocks_length (s : State) (v : Nat) (lv : Level) (h1 : 1 ≤ v) (h2 : v ≤ 40)
    (d e : List (List Byte)) (hd : s.dataBlocks v lv = some d) (he : s.eccBlocks v lv = some e) :
    (interleaveBlocks v lv d e).length = totalCodewords v := by
  have ld := s.dataBlocks_lengths v lv d hd
  have lc := s.eccBlocks_lengths v lv e he
  have hdle := length_le_of_map_length d _ ld (shortLength v lv + 1) fun b => by
    rw [blockLength]; split <;> omega
  have hele := length_le_of_map_length e _ lc (eccPerBlock v lv) fun _ => le_rfl
  obtain ⟨-, -, -, -, hT, -⟩ := capacity_bounds v h1 h2 lv
  rw [interleaveBlocks, List.length_append, interleaved_length _ d hdle, interleaved_length _ e hele, ld, lc,
    sum_blockLength, blockStart_blockCount v lv h1 h2, ← hT]
  simp [Nat.add_comm]

/-- The correction codewords of all blocks fill ECC[0..NB·C−1] (R150). -/
theorem eccBytes_length (s : State) (p : BitVec 9) (v : Nat) (lv : Level) (d : List (List Byte))
    (hd : s.dataBlocks v lv = some d) :
    (d.flatMap fun blk => rsRemainder p blk (eccPerBlock v lv)).length = blockCount v lv * eccPerBlock v lv := by
  have := gather_length _ _ _ hd
  simp [List.length_flatMap, rsRemainder_length, this]

theorem placedRows_row_length (s : Nat) (g : Grid) (p : List ((Nat × Nat) × Module)) :
    ∀ r ∈ placedRows s g p, r.length = s := by
  simp [placedRows]

/-- A symbol fills all 185 × 185 cells of GRID (R172, R186). -/
theorem frameBytes_symbolRows_length (par par' : Params) (v : Nat) (hv : v ≤ 40) (lv : Level) (m : MaskId)
    (cw : List Byte) : (frameBytes par (side v) (symbolRows par' v lv m cw)).length = 34225 :=
  frameBytes_length _ _ _ (placedRows_length _ _ _) (placedRows_row_length _ _ _) (by unfold side; omega)

/-! ## What AUTO_MASK stores (R222) -/

theorem autoMaskStore_ecl (v : Nat) (cw : List Byte) (scores : Vector Penalty 8) (s : State) :
    (autoMaskStore v cw scores s).ecl = s.ecl := by rfl

theorem autoMaskStore_params (v : Nat) (cw : List Byte) (scores : Vector Penalty 8) (s : State) :
    (autoMaskStore v cw scores s).params = s.params := by rfl

theorem autoMaskStore_mem (v : Nat) (cw : List Byte) (scores : Vector Penalty 8) (s : State) :
    (autoMaskStore v cw scores s).mem =
      (s.storeGrid v (symbolRows s.params v s.level (selectMask fun m => scores[m].total) cw)).mem := rfl

theorem autoMaskStore_mask (v : Nat) (cw : List Byte) (scores : Vector Penalty 8) (s : State) :
    (autoMaskStore v cw scores s).mask = BitVec.ofNat 3 (selectMask fun m => scores[m].total).val := rfl

theorem autoMaskStore_mvalid (v : Nat) (cw : List Byte) (scores : Vector Penalty 8) (s : State) :
    (autoMaskStore v cw scores s).mvalid = true := rfl

theorem autoMaskStore_score (v : Nat) (cw : List Byte) (scores : Vector Penalty 8) (s : State) :
    (autoMaskStore v cw scores s).score = BitVec.ofInt 32 scores[selectMask fun m => scores[m].total].total := rfl

theorem autoMaskStore_scoreM (v : Nat) (cw : List Byte) (scores : Vector Penalty 8) (s : State) :
    (autoMaskStore v cw scores s).scoreM = scores.map fun p => BitVec.ofInt 32 p.total := rfl

/-! ## States that agree on level, parameters and some bytes -/

/-- The addresses of the first n bytes of a region. -/
def Region.bytes (r : Region) (n : Nat) : Set Nat := Set.Ico r.base (r.base + n)

/-- Two states that agree on CFG's level, the parameters and the bytes at the addresses `A`. -/
structure Agree (A : Set Nat) (s s' : State) : Prop where
  ecl : s.ecl = s'.ecl
  params : s.params = s'.params
  mem : ∀ a ∈ A, s.mem.read? a = s'.mem.read? a

theorem eccBlocksEffect_level (v : Nat) (s t : State) (h : eccBlocksEffect v s = some t) : t.level = s.level := by
  obtain ⟨d, -, rfl⟩ := (eccBlocksEffect_eq_some v s t).1 h
  rfl

section
variable {A : Set Nat} {s s' t t' : State} (h : Agree A s s')
include h

theorem Agree.level : s.level = s'.level := congrArg Level.ofBits h.ecl

/-- A read inside the agreed bytes gives the same. -/
theorem Agree.load {r : Region} {i n m : Nat} (hA : r.bytes m ⊆ A) (hm : i + n ≤ m) :
    s.load r i n = s'.load r i n := by
  refine Option.ext fun bs => ?_
  rw [State.load_eq_some, State.load_eq_some]
  refine and_congr_right fun _ => forall_congr' fun k => imp_congr_right fun hk => ?_
  rw [h.mem _ (hA ⟨by omega, by omega⟩)]

/-- Writing the same bytes adds their addresses to the agreed ones. -/
theorem Agree.store (r : Region) (bs : List Byte) :
    Agree (A ∪ r.bytes bs.length) (s.store r 0 bs) (s'.store r 0 bs) := by
  refine ⟨h.ecl, h.params, fun a ha => ?_⟩
  rw [State.store_read?, State.store_read?]
  split
  · rfl
  · next hn => exact h.mem a (ha.resolve_right hn)

theorem Agree.dataBlocks {v : Nat} {lv : Level} (h1 : 1 ≤ v) (h2 : v ≤ 40)
    (hA : Region.data.bytes (dataCodewords v lv) ⊆ A) : s.dataBlocks v lv = s'.dataBlocks v lv :=
  gather_congr _ _ _ fun b hb =>
    h.load hA (blockStart_add_blockLength_le v lv h1 h2 b (List.mem_range.1 hb))

theorem Agree.eccBlocks {v : Nat} {lv : Level}
    (hA : Region.ecc.bytes (blockCount v lv * eccPerBlock v lv) ⊆ A) : s.eccBlocks v lv = s'.eccBlocks v lv :=
  gather_congr _ _ _ fun b hb => h.load hA (by
    rw [← Nat.succ_mul]; exact Nat.mul_le_mul_right _ (List.mem_range.1 hb))

/-! ## The effects keep agreement -/

/-- ECC_BLOCKS on the same payload writes the same correction codewords (R150). -/
theorem Agree.eccBlocksEffect {v : Nat} (h1 : 1 ≤ v) (h2 : v ≤ 40)
    (hA : Region.data.bytes (dataCodewords v s.level) ⊆ A)
    (ht : eccBlocksEffect v s = some t) (ht' : eccBlocksEffect v s' = some t') :
    Agree (A ∪ Region.ecc.bytes (blockCount v s.level * eccPerBlock v s.level)) t t' := by
  obtain ⟨d, hd, rfl⟩ := (eccBlocksEffect_eq_some v s t).1 ht
  obtain ⟨d', hd', rfl⟩ := (eccBlocksEffect_eq_some v s' t').1 ht'
  rw [← h.level, ← h.dataBlocks h1 h2 hA, hd] at hd'
  obtain rfl := Option.some.inj hd'
  rw [← h.level, ← h.params, ← eccBytes_length s s.params.gfPoly v s.level d hd]
  exact h.store .ecc _

/-- INTERLEAVE on the same payload and correction codewords writes the same codewords (R161). -/
theorem Agree.interleaveEffect {v : Nat} (h1 : 1 ≤ v) (h2 : v ≤ 40)
    (hA : Region.data.bytes (dataCodewords v s.level) ⊆ A)
    (hE : Region.ecc.bytes (blockCount v s.level * eccPerBlock v s.level) ⊆ A)
    (ht : interleaveEffect v s = some t) (ht' : interleaveEffect v s' = some t') :
    Agree (A ∪ Region.cw.bytes (totalCodewords v)) t t' := by
  obtain ⟨d, e, hd, he, rfl⟩ := (interleaveEffect_eq_some v s t).1 ht
  obtain ⟨d', e', hd', he', rfl⟩ := (interleaveEffect_eq_some v s' t').1 ht'
  rw [← h.level, ← h.dataBlocks h1 h2 hA, hd] at hd'
  rw [← h.level, ← h.eccBlocks hE, he] at he'
  obtain rfl := Option.some.inj hd'
  obtain rfl := Option.some.inj he'
  rw [← h.level, ← interleaveBlocks_length s v s.level h1 h2 d e hd he]
  exact h.store .cw _

theorem Agree.storeGrid {v : Nat} (hv : v ≤ 40) (lv : Level) (m : MaskId) (cw : List Byte) :
    Agree (A ∪ Region.grid.bytes 34225) (s.storeGrid v (symbolRows s.params v lv m cw))
      (s'.storeGrid v (symbolRows s'.params v lv m cw)) := by
  rw [State.storeGrid, State.storeGrid, ← h.params, ← frameBytes_symbolRows_length s.params s.params v hv lv m cw]
  exact h.store .grid _

theorem Agree.setMask (m : MaskId) : Agree A (s.setMask m) (s'.setMask m) := ⟨h.ecl, h.params, h.mem⟩

/-- BUILD on the same codewords writes the same symbol (R189). -/
theorem Agree.buildEffect {v : Nat} (hv : v ≤ 40) (m : MaskId)
    (hA : Region.cw.bytes (totalCodewords v) ⊆ A)
    (ht : buildEffect m v s = some t) (ht' : buildEffect m v s' = some t') :
    Agree (A ∪ Region.grid.bytes 34225) t t' ∧ t.mask = t'.mask ∧ t.mvalid = t'.mvalid := by
  obtain ⟨cw, hcw, rfl⟩ := (buildEffect_eq_some m v s t).1 ht
  obtain ⟨cw', hcw', rfl⟩ := (buildEffect_eq_some m v s' t').1 ht'
  rw [← h.load hA (by omega), hcw] at hcw'
  obtain rfl := Option.some.inj hcw'
  rw [← h.level]
  exact ⟨(h.storeGrid hv s.level m cw).setMask m, by simp, by simp⟩

/-- From the same eight scores AUTO_MASK stores the same symbol, mask and scores (R222). -/
theorem Agree.autoMaskStore {v : Nat} (hv : v ≤ 40) (cw : List Byte) (scores : Vector Penalty 8) :
    Agree (A ∪ Region.grid.bytes 34225) (autoMaskStore v cw scores s) (autoMaskStore v cw scores s') ∧
      (autoMaskStore v cw scores s).mask = (autoMaskStore v cw scores s').mask ∧
      (autoMaskStore v cw scores s).mvalid = (autoMaskStore v cw scores s').mvalid ∧
      (autoMaskStore v cw scores s).score = (autoMaskStore v cw scores s').score ∧
      (autoMaskStore v cw scores s).scoreM = (autoMaskStore v cw scores s').scoreM := by
  have hg := h.storeGrid hv s.level (selectMask fun m => scores[m].total) cw
  refine ⟨⟨?_, ?_, ?_⟩, ?_, ?_, ?_, ?_⟩
  · rw [autoMaskStore_ecl, autoMaskStore_ecl, h.ecl]
  · rw [autoMaskStore_params, autoMaskStore_params, h.params]
  · rw [autoMaskStore_mem, autoMaskStore_mem, ← h.level]; exact hg.mem
  · rw [autoMaskStore_mask, autoMaskStore_mask]
  · rw [autoMaskStore_mvalid, autoMaskStore_mvalid]
  · rw [autoMaskStore_score, autoMaskStore_score]
  · rw [autoMaskStore_scoreM, autoMaskStore_scoreM]

/-- AUTO_MASK on the same codewords writes the same symbol, mask and scores (R222). -/
theorem Agree.autoMaskEffect {v : Nat} (hv : v ≤ 40) (hA : Region.cw.bytes (totalCodewords v) ⊆ A)
    (ht : autoMaskEffect v s = some t) (ht' : autoMaskEffect v s' = some t') :
    Agree (A ∪ Region.grid.bytes 34225) t t' ∧ t.mask = t'.mask ∧ t.mvalid = t'.mvalid ∧
      t.score = t'.score ∧ t.scoreM = t'.scoreM := by
  obtain ⟨cw, hcw, rfl⟩ := (autoMaskEffect_eq_some v s t).1 ht
  obtain ⟨cw', hcw', rfl⟩ := (autoMaskEffect_eq_some v s' t').1 ht'
  rw [← h.load hA (by omega), hcw] at hcw'
  obtain rfl := Option.some.inj hcw'
  rw [← h.level, ← h.params]
  generalize (Vector.ofFn fun m => candidateScore s.params v s.level cw m) = scores
  exact h.autoMaskStore hv cw scores

/-- The same payload is encoded into the same correction codewords and codewords (R242). -/
theorem Agree.encodeEffect {v : Nat} (h1 : 1 ≤ v) (h2 : v ≤ 40)
    (hA : Region.data.bytes (dataCodewords v s.level) ⊆ A)
    (ht : encodeEffect v s = some t) (ht' : encodeEffect v s' = some t') :
    Agree (A ∪ Region.ecc.bytes (blockCount v s.level * eccPerBlock v s.level) ∪
      Region.cw.bytes (totalCodewords v)) t t' := by
  obtain ⟨a, ha, hat⟩ := (encodeEffect_eq_some v s t).1 ht
  obtain ⟨a', ha', hat'⟩ := (encodeEffect_eq_some v s' t').1 ht'
  have hlv : a.level = s.level := eccBlocksEffect_level v s a ha
  refine (h.eccBlocksEffect h1 h2 hA ha ha').interleaveEffect h1 h2 ?_ ?_ hat hat' <;> rw [hlv]
  · exact hA.trans Set.subset_union_left
  · exact Set.subset_union_right

end

/-- Two states with the same level and parameters agree on a payload they both hold. -/
theorem Agree.of_holds {s s' : State} {n : Nat} {d : Nat → Byte} (he : s.ecl = s'.ecl) (hp : s.params = s'.params)
    (hs : s.Holds .data n d) (hs' : s'.Holds .data n d) : Agree (Region.data.bytes n) s s' := by
  refine ⟨he, hp, fun a ⟨hlo, hhi⟩ => ?_⟩
  obtain ⟨i, rfl⟩ := Nat.exists_eq_add_of_le hlo
  rw [hs i (by omega), hs' i (by omega)]

/-! ## GENERATE and GENERATE.AUTO -/

/-- A composite command that completes has encoded the payload and run its last part, `last` (R242, R243). -/
theorem composite_eq_next (s t : State) (v : Nat) (hv : s.AtVersion v) (last : Nat → State → Option State)
    (h : (withVersion s fun v => complete ((encodeEffect v s).bind (last v))) = .next t) :
    ∃ b u, encodeEffect v s = some b ∧ last v b = some u ∧ t = u.finish := by
  obtain ⟨hver, h1, h2⟩ := hv
  rw [withVersion_of_legal s v _ hver h1 h2, complete_eq_next] at h
  obtain ⟨u, hu, rfl⟩ := h
  obtain ⟨b, hb, hu⟩ := Option.bind_eq_some_iff.1 hu
  exact ⟨b, u, hb, hu, rfl⟩

/-- The addresses a composite command writes at version v: its correction codewords, its codewords and GRID. -/
def symbolBytes (v : Nat) (lv : Level) : Set Nat :=
  Region.ecc.bytes (blockCount v lv * eccPerBlock v lv) ∪ Region.cw.bytes (totalCodewords v) ∪
    Region.grid.bytes 34225

theorem mem_symbolBytes_iff (v : Nat) (lv : Level) (a : Nat) :
    a ∈ symbolBytes v lv ↔ (0x2000 ≤ a ∧ a < 0x2000 + blockCount v lv * eccPerBlock v lv) ∨
      (0x3000 ≤ a ∧ a < 0x3000 + totalCodewords v) ∨ (0x10000 ≤ a ∧ a < 0x10000 + 34225) := or_assoc

/-- Settles O46: the payload fixes the correction codewords, these the codewords, and these the symbol and its scores. -/
theorem symbolDependsOnPayloadOnly : Obligations.SymbolDependsOnPayloadOnly := by
  intro s s' t t' v d i hv hv' hecl hpar hs hs' hi ht ht'
  rw [show s'.level = s.level from congrArg Level.ofBits hecl.symm] at hs'
  have h := Agree.of_holds hecl hpar hs hs'
  obtain ⟨-, h1, h2⟩ := id hv
  have hsub : symbolBytes v s.level ⊆ Region.data.bytes (dataCodewords v s.level) ∪
      Region.ecc.bytes (blockCount v s.level * eccPerBlock v s.level) ∪ Region.cw.bytes (totalCodewords v) ∪
      Region.grid.bytes 34225 :=
    Set.union_subset_union_left _ (Set.union_subset_union_left _ Set.subset_union_right)
  simp only [← mem_symbolBytes_iff]
  rcases hi with rfl | ⟨m, rfl⟩
  · obtain ⟨b, u, hb, hu, rfl⟩ := composite_eq_next s t v hv autoMaskEffect ht
    obtain ⟨b', u', hb', hu', rfl⟩ := composite_eq_next s' t' v hv' autoMaskEffect ht'
    obtain ⟨hg, hmask, hmv, hscore, hscoreM⟩ :=
      (h.encodeEffect h1 h2 subset_rfl hb hb').autoMaskEffect h2 Set.subset_union_right hu hu'
    exact ⟨hmask, hmv, fun a ha => hg.mem a (hsub ha), fun _ => ⟨hscore, hscoreM⟩⟩
  · obtain ⟨b, u, hb, hu, rfl⟩ := composite_eq_next s t v hv (buildEffect m) ht
    obtain ⟨b', u', hb', hu', rfl⟩ := composite_eq_next s' t' v hv' (buildEffect m) ht'
    obtain ⟨hg, hmask, hmv⟩ :=
      (h.encodeEffect h1 h2 subset_rfl hb hb').buildEffect h2 m Set.subset_union_right hu hu'
    exact ⟨hmask, hmv, fun a ha => hg.mem a (hsub ha), fun hauto => nomatch hauto⟩

end Sys2Proof.Machine
end

section
/-! SUPPORT. What any command can do, said once: the updates its effect is made of, and the completion of a decoded word. -/

namespace Sys2Proof.Machine

/-! ## A decoded command is well-formed -/

theorem slice_lt (w : Word) (hi lo : Nat) : slice w hi lo < 2 ^ (hi + 1 - lo) :=
  Nat.mod_lt _ (Nat.two_pow_pos _)

theorem decodeN_wf {w : Word} {j i : Instr} (h : decodeN w j = some i) (hj : j.wf = true) : i.wf = true := by
  obtain ⟨-, ⟨⟩⟩ := Option.ite_none_right_eq_some.1 h
  exact hj

theorem decodeG2_wf {w : Word} {mk : Byte → Byte → Instr} {i : Instr} (h : decodeG2 w mk = some i)
    (hmk : ∀ a b, (mk a b).wf = true) : i.wf = true := by
  obtain ⟨-, ⟨⟩⟩ := Option.ite_none_right_eq_some.1 h
  exact hmk _ _

theorem decodeG1_wf {w : Word} {mk : Nat → Instr} {i : Instr} (h : decodeG1 w mk = some i)
    (hmk : ∀ n, n < 256 → (mk n).wf = true) : i.wf = true := by
  obtain ⟨-, ⟨⟩⟩ := Option.ite_none_right_eq_some.1 h
  exact hmk _ (slice_lt w 15 8)

theorem decodeB_wf {w : Word} {mk : MaskId → Instr} {i : Instr} (h : decodeB w mk = some i)
    (hmk : ∀ m, (mk m).wf = true) : i.wf = true := by
  obtain ⟨-, ⟨⟩⟩ := Option.ite_none_right_eq_some.1 h
  exact hmk _

theorem decodeM_wf {w : Word} {mk : Nat → Nat → MaskId → Bool → Instr} {i : Instr}
    (h : decodeM w mk = some i) (hmk : ∀ x y m b, x < 256 → y < 256 → (mk x y m b).wf = true) : i.wf = true := by
  obtain ⟨-, ⟨⟩⟩ := Option.ite_none_right_eq_some.1 h
  exact hmk _ _ _ _ (slice_lt w 15 8) (slice_lt w 23 16)

theorem decodeX_wf {w : Word} {mk : MaskId → Instr} {auto i : Instr} (h : decodeX w mk auto = some i)
    (hmk : ∀ m, (mk m).wf = true) (hauto : auto.wf = true) : i.wf = true := by
  obtain ⟨-, h⟩ := Option.ite_none_right_eq_some.1 h
  split at h
  · obtain rfl := Option.some.inj h
    exact hmk _
  · obtain ⟨-, ⟨⟩⟩ := Option.ite_none_right_eq_some.1 h
    exact hauto

/-- The decoder's fields keep the operands in range (R99). -/
theorem decodeWord_wellFormed {w : Word} {i : Instr} (h : decodeWord w = some i) : i.WellFormed := by
  unfold decodeWord at h
  split at h
  · exact decodeN_wf h rfl
  · exact decodeN_wf h rfl
  · exact decodeG2_wf h fun _ _ => rfl
  · exact decodeG2_wf h fun _ _ => rfl
  · exact decodeG1_wf h fun _ _ => rfl
  · exact decodeG1_wf h fun _ hn => decide_eq_true hn
  · exact decodeG1_wf h fun _ _ => rfl
  · exact decodeG1_wf h fun _ hn => decide_eq_true hn
  · exact decodeG1_wf h fun _ hn => decide_eq_true hn
  · exact decodeN_wf h rfl
  · exact decodeN_wf h rfl
  · exact decodeB_wf h fun _ => rfl
  · exact decodeB_wf h fun _ => rfl
  · exact decodeM_wf h fun x y _ _ hx hy => by simp [Instr.wf, hx, hy]
  · exact decodeN_wf h rfl
  · exact decodeN_wf h rfl
  · exact decodeX_wf h (fun _ => rfl) rfl
  · exact nomatch h

/-! ## The updates a command is made of -/

/-- The bytes `bs` at offset `j` of the region `r` exist (R62, R68) and are cell codes where the region is GRID (R40). -/
structure Fits (r : Region) (j : Nat) (bs : List Byte) : Prop where
  held : j + bs.length ≤ r.held
  codes : r = .grid → ∀ b ∈ bs, b.toNat < 4

theorem Fits.of_ne_grid {r : Region} {j : Nat} {bs : List Byte} (hr : r ≠ .grid) (h : j + bs.length ≤ r.held) :
    Fits r j bs := ⟨h, fun hg => absurd hg hr⟩

/-- A whole frame fits GRID (R172, R186). -/
theorem fits_frameBytes (par : Params) {v : Nat} (hv : v ≤ 40) (rows : List (List Module))
    (hl : rows.length = side v) (hr : ∀ r ∈ rows, r.length = side v) :
    Fits .grid 0 (frameBytes par (side v) rows) where
  held := by
    rw [frameBytes_length par (side v) rows hl hr (by unfold side; omega)]
    decide
  codes _ b hb := Nat.lt_succ_of_lt (frameBytes_code par (side v) rows b hb)

/-- `u` is reached from `s` by updates of the kinds the effects of commands are made of (R259). The stores of a well-formed
command fit their regions. -/
inductive Effect (i : Instr) (s : State) : State → Prop where
  | same : Effect i s s
  | setResult {u : State} (b : Byte) : Effect i s u → Effect i s (u.setResult b)
  | store {u : State} (r : Region) (j : Nat) (bs : List Byte) (hfit : i.WellFormed → Fits r j bs) :
      Effect i s u → Effect i s (u.store r j bs)
  | setMask {u : State} (m : MaskId) : Effect i s u → Effect i s (u.setMask m)
  | setScore {u : State} (p : Penalty) : Effect i s u → Effect i s (u.setScore p)
  | setScoreM {u : State} (x : Vector Word 8) : Effect i s u → Effect i s { u with scoreM := x }
  | softReset {u : State} : Effect i s u → Effect i s u.softReset

namespace Effect

variable {i : Instr} {s a u : State} {v : Nat} (ha : Effect i s a)
include ha

theorem storeGrid (hv : v ≤ 40) (rows : List (List Module)) (hl : rows.length = side v)
    (hr : ∀ r ∈ rows, r.length = side v) : Effect i s (a.storeGrid v rows) :=
  ha.store .grid 0 _ fun _ => fits_frameBytes a.params hv rows hl hr

theorem storeSymbol (hv : v ≤ 40) (par : Params) (lv : Level) (m : MaskId) (cw : List Byte) :
    Effect i s (a.storeGrid v (symbolRows par v lv m cw)) :=
  ha.storeGrid hv _ (placedRows_length _ _ _) (placedRows_row_length _ _ _)

theorem eccBlocks (h1 : 1 ≤ v) (h2 : v ≤ 40) (h : eccBlocksEffect v a = some u) : Effect i s u := by
  obtain ⟨d, hd, rfl⟩ := (eccBlocksEffect_eq_some v a u).1 h
  refine ha.store .ecc 0 _ fun _ => .of_ne_grid (by decide) ?_
  obtain ⟨-, -, -, -, hT, -, -, -, hle, -⟩ := capacity_bounds v h1 h2 a.level
  rw [eccBytes_length a _ v a.level d hd]
  show 0 + blockCount v a.level * eccPerBlock v a.level ≤ 4096
  omega

theorem interleave (h1 : 1 ≤ v) (h2 : v ≤ 40) (h : interleaveEffect v a = some u) : Effect i s u := by
  obtain ⟨d, e, hd, he, rfl⟩ := (interleaveEffect_eq_some v a u).1 h
  refine ha.store .cw 0 _ fun _ => .of_ne_grid (by decide) ?_
  obtain ⟨-, -, -, -, -, -, -, -, hle, -⟩ := capacity_bounds v h1 h2 a.level
  rw [interleaveBlocks_length a v a.level h1 h2 d e hd he]
  show 0 + totalCodewords v ≤ 4096
  omega

theorem encode (h1 : 1 ≤ v) (h2 : v ≤ 40) (h : encodeEffect v a = some u) : Effect i s u := by
  obtain ⟨b, hb, hu⟩ := (encodeEffect_eq_some v a u).1 h
  exact (ha.eccBlocks h1 h2 hb).interleave h1 h2 hu

theorem build (hv : v ≤ 40) (m : MaskId) (h : buildEffect m v a = some u) : Effect i s u := by
  obtain ⟨cw, -, rfl⟩ := (buildEffect_eq_some m v a u).1 h
  exact (ha.storeSymbol hv _ _ m cw).setMask m

theorem autoMask (hv : v ≤ 40) (h : autoMaskEffect v a = some u) : Effect i s u := by
  obtain ⟨cw, -, rfl⟩ := (autoMaskEffect_eq_some v a u).1 h
  exact (((ha.storeSymbol hv _ _ _ cw).setScore _).setMask _).setScoreM _

end Effect

/-- The states in which a command can complete (R256): with an error, or with its effect done. -/
inductive Completion (i : Instr) (s : State) : State → Prop where
  | error (e : CommandError) : Completion i s (s.raise e)
  | success {u : State} : Effect i s u → Completion i s u.finish

/-- Whenever the result is a next state, the command has completed in it. -/
def Completes (i : Instr) (s : State) (r : Result) : Prop := ∀ t, r = .next t → Completion i s t

namespace Completes

variable {i : Instr} {s : State}

theorem next {t : State} (h : Completion i s t) : Completes i s (.next t) := by
  rintro _ ⟨⟩
  exact h

theorem fault (f : Fault) : Completes i s (.fault f) := fun _ h => nomatch h

theorem ite {c : Prop} [Decidable c] {r r' : Result} (h : c → Completes i s r) (h' : ¬ c → Completes i s r') :
    Completes i s (if c then r else r') := by
  split
  · next hc => exact h hc
  · next hc => exact h' hc

theorem complete {o : Option State} (h : ∀ u, o = some u → Effect i s u) : Completes i s (complete o) := by
  intro t ht
  obtain ⟨u, hu, rfl⟩ := (complete_eq_next o t).1 ht
  exact .success (h u hu)

theorem withVersion {k : Nat → Result} (h : ∀ v, 1 ≤ v → v ≤ 40 → Completes i s (k v)) :
    Completes i s (withVersion s k) := by
  rcases withVersion_cases s k with ⟨v, hv, hk⟩ | ⟨-, hk⟩
  · obtain ⟨-, h1, h2⟩ := (s.symbolVersion_eq_some v).1 hv
    rw [hk]
    exact h v h1 h2
  · rw [hk]
    exact next (.error _)

/-- GEN_POLY writes C + 1 coefficients (R134). -/
theorem genPoly (c : Nat) (s : State) : Completes (.genPoly c) s (execGenPoly c s) :=
  ite (fun _ => next (.error _)) fun _ => next <| .success <| Effect.same.store .gen 0 _ fun hc =>
    .of_ne_grid (by decide) (by
      have hc : c < 256 := of_decide_eq_true hc
      rw [genPoly_length]
      show 0 + (c + 1) ≤ 256
      omega)

/-- RS_ENC writes C correction codewords inside ECC (R135). -/
theorem rsEnc (c : Nat) (s : State) : Completes (.rsEnc c) s (execRsEnc c s) := by
  rcases execRsEnc_cases c s with ⟨-, h⟩ | ⟨-, -, h⟩ | ⟨m, hr, -, h⟩
  · rw [h]
    exact next (.error _)
  · rw [h]
    exact fault _
  · rw [h]
    have hr : s.rsDst.toNat + c ≤ 4096 := by simp [State.rsInRange] at hr; omega
    refine next <| .success <| Effect.same.store .ecc _ _ fun _ => .of_ne_grid (by decide) ?_
    rw [rsRemainder_length]
    exact hr

theorem score (s : State) : Completes .score s (execScore s) := by
  rcases execScore_cases s with ⟨-, h⟩ | ⟨v, -, -, h⟩ | ⟨v, rows, -, -, h⟩
  · rw [h]
    exact next (.error _)
  · rw [h]
    exact fault _
  · rw [h, scoreCells]
    split
    · exact next (.success (Effect.same.setScore _))
    · exact next (.error _)

end Completes

/-- Everything a command that answers a next state can do (R256, R259). -/
theorem exec_completes (i : Instr) (s : State) : Completes i s (exec i s) := by
  have setsResult : ∀ b : Byte, Completes i s (.next (s.setResult b).finish) := fun b =>
    .next (.success (Effect.same.setResult b))
  cases i with
  | nop => exact .next (.success .same)
  | sreset => exact .next (.success Effect.same.softReset)
  | gfAdd a b => exact setsResult _
  | gfMul a b => exact setsResult _
  | gfInv a => exact .ite (fun _ => .next (.error _)) fun _ => setsResult _
  | gfExp n => exact setsResult _
  | gfLog a => exact .ite (fun _ => .next (.error _)) fun _ => setsResult _
  | genPoly c => exact .genPoly c s
  | rsEnc c => exact .rsEnc c s
  | eccBlocks => exact .withVersion fun v h1 h2 => .complete fun u => Effect.same.eccBlocks h1 h2
  | interleave => exact .withVersion fun v h1 h2 => .complete fun u => Effect.same.interleave h1 h2
  | buildFunc m =>
    exact .withVersion fun v _ h2 => .next <| .success <|
      Effect.same.storeGrid h2 _ (gridRows_length _ _) (by simp [gridRows])
  | build m => exact .withVersion fun v _ h2 => .complete fun u => Effect.same.build h2 m
  | maskEval x y m bit => exact setsResult _
  | score => exact .score s
  | autoMask => exact .withVersion fun v _ h2 => .complete fun u => Effect.same.autoMask h2
  | generate m =>
    refine .withVersion fun v h1 h2 => .complete fun u hu => ?_
    obtain ⟨b, hb, hu⟩ := Option.bind_eq_some_iff.1 hu
    exact (Effect.same.encode h1 h2 hb).build h2 m hu
  | generateAuto =>
    refine .withVersion fun v h1 h2 => .complete fun u hu => ?_
    obtain ⟨b, hb, hu⟩ := Option.bind_eq_some_iff.1 hu
    exact (Effect.same.encode h1 h2 hb).autoMask h2 hu

end Sys2Proof.Machine
end

section
/-! SUPPORT. Every step keeps the invariant of the core (R26 to R33, R40, R46, R62, R251, R256, R280). -/

namespace Sys2Proof.Machine

/-! ## The memory -/

/-- The clauses of the invariant about the memory: canonical, mapped, and cell codes in GRID. -/
structure Memory.Sound (m : Memory) : Prop where
  canonical : m.wf = true
  mapped : ∀ c ∈ m, ∃ r : Region, r.base ≤ c.1 ∧ c.1 < r.base + r.held
  codes : ∀ c ∈ m, Region.grid.base ≤ c.1 → c.2.toNat < 4

/-- GRID is the last region (R62). -/
theorem Region.base_add_held_le_grid {r : Region} (hr : r ≠ .grid) : r.base + r.held ≤ Region.grid.base := by
  cases r with
  | grid => contradiction
  | _ => decide

theorem Memory.Sound.write {m : Memory} (h : m.Sound) {r : Region} {j : Nat} {bs : List Byte} (hf : Fits r j bs) :
    (m.write (r.base + j) bs).Sound where
  canonical := Memory.wf_write m _ bs h.canonical
  mapped c hc := by
    obtain hc | ⟨k, hk, hck⟩ := Memory.mem_write m _ bs c hc
    · exact h.mapped c hc
    · have := (List.getElem?_eq_some_iff.1 hk).1
      have := hf.held
      exact ⟨r, by omega, by omega⟩
  codes c hc hg := by
    obtain hc | ⟨k, hk, hck⟩ := Memory.mem_write m _ bs c hc
    · exact h.codes c hc hg
    · refine hf.codes ?_ _ (List.mem_of_getElem? hk)
      by_contra hr
      have := Region.base_add_held_le_grid hr
      have := (List.getElem?_eq_some_iff.1 hk).1
      have := hf.held
      omega

/-- A host write stores in GRID the bits [1:0] of a lane only (R68). -/
theorem storedByte_grid_lt (b : Byte) : (storedByte .grid b).toNat < 4 := by
  show b.toNat &&& 3 < 4
  exact Nat.lt_succ_of_le Nat.and_le_right

theorem Memory.Sound.hostWrite {m : Memory} (h : m.Sound) {r : Region} {a : Nat} (ha : r.base ≤ a) (b : Byte) :
    (m.hostWrite r a b).Sound := by
  rw [Memory.hostWrite]
  split
  · next hheld =>
    obtain ⟨j, rfl⟩ := Nat.exists_eq_add_of_le ha
    have hj : r.base + j < r.base + r.held := of_decide_eq_true hheld
    refine h.write ⟨by simp; omega, ?_⟩
    rintro rfl
    simpa using storedByte_grid_lt b
  · exact h

theorem Memory.Sound.hostWriteWord {m : Memory} (h : m.Sound) {r : Region} {a : Nat} (ha : r.base ≤ a) (w : Word)
    (strb : BitVec 4) : (m.hostWriteWord r a w strb).Sound := by
  refine List.foldlRecOn (motive := Memory.Sound) _ _ h fun m hm i _ => ?_
  split
  · exact hm.hostWrite (Nat.le_add_right_of_le ha) _
  · exact hm

/-- A region's word lies at or after the region's first address (R62). -/
theorem base_le_of_target {addr : Addr} {r : Region} {a : Nat} (h : target addr = .word r a) : r.base ≤ a := by
  unfold target at h
  dsimp only at h
  split at h
  · contradiction
  · split at h
    · split at h <;> contradiction
    · split at h
      · next hf =>
        obtain ⟨rfl, rfl⟩ := Target.word.inj h
        have hin := List.find?_some hf
        exact (of_decide_eq_true hin).1
      · contradiction

/-! ## The updates of the state -/

theorem CommandError.code_ne_zero (e : CommandError) : e.code ≠ 0 := by cases e <;> decide

/-- Settles O59: nothing is written and every register is 0. -/
theorem invariantHoldsAtReset : Obligations.InvariantHoldsAtReset := by
  unfold Obligations.InvariantHoldsAtReset
  constructor <;> simp [State.reset, Memory.wf, State.busy]

namespace State.Inv

theorem hardReset (s : State) (level : Bool) : (s.hardReset level).Inv :=
  { invariantHoldsAtReset with resetIdle := fun _ => rfl }

variable {s : State} (h : s.Inv)
include h

theorem sound : s.mem.Sound := ⟨h.memCanonical, h.memMapped, h.gridCodes⟩

theorem withMem {m : Memory} (hm : m.Sound) : ({ s with mem := m } : State).Inv :=
  { h with memCanonical := hm.canonical, memMapped := hm.mapped, gridCodes := hm.codes }

theorem withEvents (rest : List Event) : ({ s with events := rest } : State).Inv := { h with }

theorem finish : s.finish.Inv :=
  { h with
    busyFlags := nofun
    pendingIsLast := nofun
    resetIdle := fun _ => rfl }

/-- A command error sets ERR and a code 1..5 together (R251, R256). -/
theorem raise (e : CommandError) : (s.raise e).Inv :=
  { h with
    errCodeOfErr := iff_of_true rfl e.code_ne_zero
    errCodeKnown := e.code_bounds.2
    busyFlags := nofun
    pendingIsLast := nofun
    resetIdle := fun _ => rfl }

/-- The word of the total is the sum of the words of the terms (R33). -/
theorem setScore (p : Penalty) : (s.setScore p).Inv :=
  { h with
    scoreSum := by
      simp only [setScore_score, setScore_scoreR1, setScore_scoreR2, setScore_scoreR3, setScore_scoreR4,
        Penalty.total, BitVec.ofInt_add, BitVec.ofInt_natCast] }

theorem clearStatus (w : Word) : (s.clearStatus w).Inv :=
  { h with
    errCodeOfErr := by
      rw [clearStatus_err, clearStatus_errCode]
      cases w.getLsbD 2 with
      | false => simpa using h.errCodeOfErr
      | true => simp
    errCodeKnown := by
      rw [clearStatus_errCode]
      split
      · decide
      · exact h.errCodeKnown
    busyFlags := fun hb => by
      obtain ⟨hd, he⟩ := h.busyFlags hb
      simp [hd, he] }

/-- Acceptance stores the word in LASTCMD and pending; it needs the reset input released (R28, R280). -/
theorem accept (hrst : s.rst = false) (w : Word) : (s.accept w).Inv :=
  { h with
    errCodeOfErr := by simp
    errCodeKnown := by simp
    busyFlags := fun _ => ⟨rfl, rfl⟩
    pendingIsLast := fun _ => Option.some.inj
    resetIdle := fun hr => absurd hr (by simp [hrst]) }

/-! ## Commands -/

theorem effect {i : Instr} (hi : i.WellFormed) {u : State} (hu : Effect i s u) : u.Inv := by
  induction hu with
  | same => exact h
  | setResult b _ ih => exact { ih with }
  | store r j bs hfit _ ih => exact ih.withMem (ih.sound.write (hfit hi))
  | setMask m _ ih => exact { ih with maskOfInvalid := nofun }
  | setScore p _ ih => exact ih.setScore p
  | setScoreM x _ ih => exact { ih with }
  | softReset _ ih => exact { ih with scoreSum := rfl, maskOfInvalid := fun _ => rfl }

theorem completion {i : Instr} (hi : i.WellFormed) {t : State} (ht : Completion i s t) : t.Inv := by
  cases ht with
  | error e => exact h.raise e
  | success hu => exact (h.effect hi hu).finish

theorem engineTurn {t : State} (ht : engineTurn s = .next t) : t.Inv := by
  rcases engineTurn_cases s t ht with ⟨-, rfl⟩ | ⟨w, -, -, rfl⟩ | ⟨w, i, -, hd, he⟩ | ⟨w, i, f, -, -, -, rfl⟩
  · exact h
  · exact h.raise .illegalCmd
  · exact h.completion (decodeWord_wellFormed hd) (exec_completes i s t he)
  · exact { h with }

/-! ## Transactions -/

theorem hostWriteReg (hrst : s.rst = false) (w : Word) (r : Reg) : (s.hostWriteReg w r).2.Inv := by
  rcases hostWriteReg_cases s w r with e | e | e | ⟨-, e⟩ | ⟨-, e⟩ | ⟨-, v, l, e⟩ | ⟨-, a, l, d, e⟩ <;> rw [e]
  · exact h
  · exact { h with }
  · exact h.clearStatus w
  · exact { h with }
  · exact h.accept hrst w
  · exact { h with }
  · exact { h with }

theorem busWrite (hrst : s.rst = false) (addr : Addr) (w : Word) (strb : BitVec 4) :
    (s.busWrite addr w strb).2.Inv := by
  rcases busWrite_cases s addr w strb with e | ⟨r, e⟩ | ⟨r, a, ht, -, e⟩ <;> rw [e]
  · exact h
  · exact h.hostWriteReg hrst w r
  · exact h.withMem (h.sound.hostWriteWord (base_le_of_target ht) w strb)

theorem transact (hrst : s.rst = false) (x : Txn) : (s.transact x).Inv := by
  cases x with
  | read addr => exact { h with }
  | write addr w strb => exact { h.busWrite hrst addr w strb with }

end State.Inv

/-- Settles O60: the engine's turn, a reset edge and a transaction each keep the invariant. -/
theorem stepKeepsInvariant : Obligations.StepKeepsInvariant := by
  intro s t h hs
  obtain ⟨-, ⟨-, ht⟩ | ⟨rest, -, ht⟩ | ⟨rest, l, -, rfl⟩ | ⟨rest, x, -, -, rfl⟩ | ⟨rest, x, -, hrst, rfl⟩⟩ :=
    step_cases s t hs
  · exact h.engineTurn ht
  · exact (h.withEvents rest).engineTurn ht
  · exact .hardReset _ l
  · exact h.withEvents rest
  · exact (h.withEvents rest).transact hrst x

end Sys2Proof.Machine
end

section
/-! SUPPORT. The host port register by register (R21 to R39, R49, R66, R70, R71): what a full-strobe write does, what a read gives, the INFO registers and the interrupt. -/

namespace Sys2Proof.Machine

/-! ## Writes -/

theorem target_of_ofOffset {addr : Addr} {r : Reg} (h4 : addr.toNat % 4 = 0) (ha : addr.toNat < 0x100)
    (h : Reg.ofOffset addr.toNat = some r) : target addr = .reg r := by
  simp [target, h4, ha, h]

/-- A full-strobe write to a register's address is a write of that register (R66). -/
theorem busWrite_reg {addr : Addr} {r : Reg} (h : target addr = .reg r) (s : State) (w : Word) :
    s.busWrite addr w 0b1111 = s.hostWriteReg w r := by
  rw [State.busWrite, h]
  exact if_pos rfl

/-- The registers a write never changes (R66). -/
def Reg.readOnly : Reg → Bool
  | .ctrl | .status | .cmd | .cfg | .rsSrc | .rsLen | .rsDst => false
  | _ => true

theorem hostWriteReg_of_readOnly {r : Reg} (h : r.readOnly = true) (s : State) (w : Word) :
    s.hostWriteReg w r = (.okay, s) := by
  cases r with
  | ctrl | status | cmd | cfg | rsSrc | rsLen | rsDst => contradiction
  | _ => rfl

/-- Every address of a register but the seven writable ones is the address of a read-only register (R22, R66). -/
theorem readOnly_of_isRegisterAddr {addr : Addr} (h : IsRegisterAddr addr.toNat)
    (hw : addr.toNat ∉ [0x004, 0x008, 0x00C, 0x010, 0x060, 0x064, 0x068]) :
    ∃ r, target addr = .reg r ∧ r.readOnly = true := by
  have readOnlyAt : ∀ a < 0x90, a % 4 = 0 → a ≤ 0x034 ∨ (0x040 ≤ a ∧ a ≤ 0x068) ∨ (0x080 ≤ a ∧ a ≤ 0x08C) →
      a ∈ [0x004, 0x008, 0x00C, 0x010, 0x060, 0x064, 0x068] ∨ (Reg.ofOffset a).any Reg.readOnly = true := by
    decide
  obtain ⟨h4, hr⟩ := h
  have hro := (readOnlyAt addr.toNat (by omega) h4 hr).resolve_left hw
  cases hreg : Reg.ofOffset addr.toNat with
  | none => simp [hreg] at hro
  | some r => exact ⟨r, target_of_ofOffset h4 (by omega) hreg, by simpa [hreg] using hro⟩

theorem and_not_eq_ite (b c : Bool) : (b && !c) = if c then false else b := by cases b <;> cases c <;> rfl

/-- A write to STATUS, bit by bit (R27). -/
theorem State.clearStatus_eq (s : State) (w : Word) : s.clearStatus w = { s with
    done := if w.getLsbD 1 then false else s.done, err := if w.getLsbD 2 then false else s.err
    errCode := if w.getLsbD 2 then 0 else s.errCode, ovr := if w.getLsbD 3 then false else s.ovr } := by
  simp only [clearStatus, and_not_eq_ite]

/-- Settles O52, in the two states of BUSY. -/
theorem cmdWriteAcceptsOrOverruns : Obligations.CmdWriteAcceptsOrOverruns := by
  intro s w
  rw [busWrite_reg (r := .cmd) rfl, State.hostWriteReg]
  refine ⟨fun hb => ?_, fun hb => ?_⟩
  · rw [hb]; rfl
  · rw [hb]; rfl

/-- Settles O51, register by register. -/
theorem registerWriteEffects : Obligations.RegisterWriteEffects := by
  intro s w
  refine ⟨rfl, ?_, fun hb => ?_, fun addr ha hw => ?_⟩
  · rw [busWrite_reg (r := .status) rfl, State.hostWriteReg, State.clearStatus_eq]
  · rw [busWrite_reg (r := .cfg) rfl, busWrite_reg (r := .rsSrc) rfl, busWrite_reg (r := .rsLen) rfl,
      busWrite_reg (r := .rsDst) rfl, ← BitVec.setWidth_eq_extractLsb' (by decide),
      ← BitVec.setWidth_eq_extractLsb' (by decide)]
    simp [State.hostWriteReg, hb]
  · obtain ⟨r, hr, hro⟩ := readOnly_of_isRegisterAddr ha hw
    rw [busWrite_reg hr, hostWriteReg_of_readOnly hro]

/-! ## The interrupt -/

theorem Effect.ctrlIE_eq {i : Instr} {s u : State} (h : Effect i s u) : u.ctrlIE = s.ctrlIE := by
  induction h with
  | same => rfl
  | setResult _ _ ih | store _ _ _ _ _ ih | setMask _ _ ih | setScore _ _ ih | setScoreM _ _ ih | softReset _ ih =>
    exact ih

/-- Completion sets DONE and leaves CTRL.IE (R51, R256). -/
theorem Completion.irq_eq {i : Instr} {s t : State} (h : Completion i s t) : t.irq = s.ctrlIE := by
  cases h with
  | error e => exact Bool.and_true _
  | success hu => exact (Bool.and_true _).trans hu.ctrlIE_eq

/-- Settles O58: DONE is set by every completion; the three writes clear DONE or IE. -/
theorem interruptFollowsDone : Obligations.InterruptFollowsDone := by
  refine fun s => ⟨rfl, fun i t h => (exec_completes i s t h).irq_eq, fun w hw => ?_, fun w hw => ?_, fun w hb => ?_⟩
  · rw [busWrite_reg (r := .status) rfl]
    simp only [State.irq, State.hostWriteReg, State.clearStatus_done, hw]
    simp
  · rw [busWrite_reg (r := .ctrl) rfl]
    simp only [State.irq, State.hostWriteReg, hw, Bool.false_and]
  · rw [busWrite_reg (r := .cmd) rfl]
    simp [State.irq, State.hostWriteReg, hb]

/-! ## Reads -/

theorem busRead_reg {addr : Addr} {r : Reg} (h : target addr = .reg r) (s : State) :
    s.busRead addr = (.okay, s.hostReadReg r) := by
  rw [State.busRead, h]

/-- The registers that are no result registers read exactly in every state (R71). -/
theorem busRead_settled {addr : Addr} {r : Reg} (h : target addr = .reg r) (hr : r.unsettledWhileBusy = false)
    (s : State) : s.busRead addr = (.okay, s.readReg r) := by
  rw [busRead_reg h, State.hostReadReg, hr, Bool.and_false]
  rfl

/-- While not BUSY every register reads exactly (R71). -/
theorem busRead_idle {addr : Addr} {r : Reg} (h : target addr = .reg r) {s : State} (hb : s.busy = false) :
    s.busRead addr = (.okay, s.readReg r) := by
  rw [busRead_reg h, State.hostReadReg, hb, Bool.false_and]
  rfl

/-- Or-ing in a field above the bits that `lo` uses adds it. -/
theorem toNat_or_field {lo hi : Word} (i n : Nat) (hlo : lo.toNat < 2 ^ i) (hhi : hi.toNat = 2 ^ i * n) :
    (lo ||| hi).toNat = lo.toNat + 2 ^ i * n := by
  rw [BitVec.toNat_or, hhi, Nat.or_comm, ← Nat.two_pow_add_eq_or_of_lt hlo, Nat.add_comm]

theorem flagBit_toNat (b : Bool) {i : Nat} (hi : i < 32) : (flagBit b i).toNat = 2 ^ i * b.toNat := by
  have := Nat.pow_lt_pow_right (a := 2) (by decide) hi
  cases b <;> simp [flagBit, this]

/-- A field of n bits moved up by i, where the word has room for it. -/
theorem toNat_shifted_field {n : Nat} (x : BitVec n) {i : Nat} (h : i + n ≤ 32) :
    (x.setWidth 32 <<< i : Word).toNat = 2 ^ i * x.toNat := by
  have hx : x.toNat < 2 ^ n := x.isLt
  have : 2 ^ i * x.toNat < 2 ^ 32 :=
    calc 2 ^ i * x.toNat < 2 ^ i * 2 ^ n := by gcongr
      _ = 2 ^ (i + n) := (Nat.pow_add 2 i n).symm
      _ ≤ 2 ^ 32 := Nat.pow_le_pow_right (by decide) h
  rw [BitVec.toNat_shiftLeft, BitVec.toNat_setWidth_of_le (by omega), Nat.shiftLeft_eq, Nat.mul_comm,
    Nat.mod_eq_of_lt this]

theorem flags_toNat : ∀ b d e o : Bool, (flagBit b 0 ||| flagBit d 1 ||| flagBit e 2 ||| flagBit o 3).toNat =
    b.toNat + 2 * d.toNat + 4 * e.toNat + 8 * o.toNat := by decide

/-- STATUS as a number (R26). -/
theorem State.statusWord_toNat (s : State) : s.statusWord.toNat =
    s.busy.toNat + 2 * s.done.toNat + 4 * s.err.toNat + 8 * s.ovr.toNat + 256 * s.errCode.toNat := by
  have hb := s.busy.toNat_le
  have hd := s.done.toNat_le
  have he := s.err.toNat_le
  have ho := s.ovr.toNat_le
  rw [statusWord, toNat_or_field 8 _ (by rw [flags_toNat]; omega) (toNat_shifted_field _ (by decide)), flags_toNat]
  rfl

/-- CFG as a number (R29). -/
theorem readReg_cfg_toNat (s : State) : (s.readReg .cfg).toNat = s.version.toNat + 256 * s.ecl.toNat := by
  have hv : (s.version.setWidth 32).toNat = s.version.toNat := BitVec.toNat_setWidth_of_le (by decide)
  rw [State.readReg, toNat_or_field 8 _ (by omega) (toNat_shifted_field _ (by decide)), hv]
  rfl

/-- MASKSEL as a number (R31). -/
theorem readReg_maskSel_toNat (s : State) : (s.readReg .maskSel).toNat = s.mask.toNat + 8 * s.mvalid.toNat := by
  have hm : (s.mask.setWidth 32).toNat = s.mask.toNat := BitVec.toNat_setWidth_of_le (by decide)
  rw [State.readReg, toNat_or_field 3 _ (by omega) (flagBit_toNat _ (by decide)), hm]
  rfl

theorem target_scoreM : ∀ m : MaskId, target (BitVec.ofNat 17 (0x040 + 4 * m.val)) = .reg (.scoreM m) := by decide

/-- Settles O53, register by register; the fields of STATUS, CFG and MASKSEL add up to the word. -/
theorem registerReadsExact : Obligations.RegisterReadsExact := by
  intro s
  refine ⟨busRead_settled (r := .id) rfl rfl s, ?_, ⟨_, busRead_settled (r := .status) rfl rfl s, s.statusWord_toNat⟩,
    busRead_settled (r := .cmd) rfl rfl s, ⟨_, busRead_settled (r := .cfg) rfl rfl s, readReg_cfg_toNat s⟩,
    busRead_settled (r := .rsSrc) rfl rfl s, busRead_settled (r := .rsLen) rfl rfl s,
    busRead_settled (r := .rsDst) rfl rfl s, fun hb => ?_, fun _ => ?_⟩
  · rw [busRead_settled (r := .ctrl) rfl rfl, State.readReg]
    cases s.ctrlIE <;> rfl
  · exact ⟨busRead_idle (r := .result) rfl hb, ⟨_, busRead_idle (r := .maskSel) rfl hb, readReg_maskSel_toNat s⟩,
      busRead_idle (r := .score) rfl hb, busRead_idle (r := .scoreR1) rfl hb, busRead_idle (r := .scoreR2) rfl hb,
      busRead_idle (r := .scoreR3) rfl hb, busRead_idle (r := .scoreR4) rfl hb, busRead_idle (r := .scoreDark) rfl hb,
      busRead_idle (r := .scoreN) rfl hb, fun m => busRead_idle (target_scoreM m) hb⟩
  · simp only [List.forall_mem_cons]
    exact ⟨rfl, rfl, rfl, rfl, rfl, rfl, rfl, rfl, rfl, by simp⟩

/-! ## The INFO registers -/

theorem State.info_of_atVersion {s : State} {v : Nat} (h : s.AtVersion v) (f : Nat → Level → Nat) :
    s.info f = BitVec.ofNat 32 (f v s.level) := by
  rw [info, (s.symbolVersion_eq_some v).2 h]

theorem State.info_of_illegal {s : State} (h : s.version.toNat = 0 ∨ 41 ≤ s.version.toNat) (f : Nat → Level → Nat) :
    s.info f = 0 := by
  rw [info, s.symbolVersion_eq_none.2 h]

/-- The widths of the INFO fields (R36 to R39). -/
theorem info_field_bounds {v : Nat} (h1 : 1 ≤ v) (h2 : v ≤ 40) (lv : Level) :
    dataCodewords v lv < 2 ^ 12 ∧ totalCodewords v < 2 ^ 12 ∧ blockCount v lv < 2 ^ 7 ∧ eccPerBlock v lv < 2 ^ 8 ∧
      shortLength v lv < 2 ^ 8 ∧ shortBlocks v lv < 2 ^ 7 ∧ dataModules v < 2 ^ 15 ∧ remainderModules v < 2 ^ 3 := by
  have short : ∀ v, v ≤ 40 → 1 ≤ v → ∀ lv ∈ [Level.L, .M, .Q, .H], shortLength v lv < 2 ^ 8 := by decide +kernel
  obtain ⟨-, hNB, -, hC, hD, -, -, hNS, hT, hR⟩ := capacity_bounds v h1 h2 lv
  have hM : remainderModules v = dataModules v - 8 * totalCodewords v := rfl
  exact ⟨by omega, by omega, by omega, by omega, short v h2 h1 lv (by cases lv <;> decide), by omega, by omega, hR⟩

/-- The capacity entry of version v, as the rows of R146 list it. -/
def capacityRow (v : Nat) : Nat × Nat × List (Nat × Nat × Nat × Nat × Nat) :=
  (dataModules v, totalCodewords v, [Level.L, .M, .Q, .H].map fun lv =>
    (blockCount v lv, eccPerBlock v lv, shortBlocks v lv, shortLength v lv, dataCodewords v lv))

/-- The entries are the rows that R146 prints: both lists are closed, and evaluate to one. -/
theorem printedCapacity_eq : printedCapacity = (List.range 40).map fun k => capacityRow (k + 1) := by rfl

theorem printedCapacity_getElem? {v : Nat} (h1 : 1 ≤ v) (h2 : v ≤ 40) :
    printedCapacity[v - 1]? = some (capacityRow v) := by
  rw [printedCapacity_eq, List.getElem?_map, List.getElem?_range (by omega), Option.map_some, Nat.sub_add_cancel h1]

/-- NS short blocks and NB − NS long ones hold the D data codewords (R146, R148). -/
theorem dataCodewords_eq_blocks {v : Nat} (h1 : 1 ≤ v) (h2 : v ≤ 40) (lv : Level) :
    dataCodewords v lv =
      shortBlocks v lv * shortLength v lv + (blockCount v lv - shortBlocks v lv) * (shortLength v lv + 1) := by
  obtain ⟨-, -, -, -, -, hD, -, hle, -⟩ := capacity_bounds v h1 h2 lv
  obtain ⟨k, hk⟩ := Nat.exists_eq_add_of_le hle
  rw [← hD, hk, Nat.add_sub_cancel_left]
  ring

/-- ECL 0, 1, 2, 3 select L, M, Q, H (R29). -/
theorem Level.ofBits_eq : ∀ b : BitVec 2, Level.ofBits b =
    if b.toNat = 0 then .L else if b.toNat = 1 then .M else if b.toNat = 2 then .Q else .H := by decide

/-- An INFO register outside the legal versions (R149). -/
theorem busRead_info_of_illegal {s : State} (h : s.version.toNat = 0 ∨ 41 ≤ s.version.toNat) {addr : Addr} {r : Reg}
    (ht : target addr = .reg r) (hr : r ∈ [.infoSize, .infoCw, .infoBlk, .infoRaw]) : s.busRead addr = (.okay, 0) := by
  simp only [List.mem_cons, List.not_mem_nil, or_false] at hr
  rcases hr with rfl | rfl | rfl | rfl <;>
    rw [busRead_settled ht rfl, State.readReg, State.info_of_illegal h]

/-- Settles O54: the fields of each INFO word are narrower than their places, and the table is the printed one. -/
theorem infoRegistersDecodeCfg : Obligations.InfoRegistersDecodeCfg := by
  refine ⟨fun s v hv => ?_, fun s hv => ?_, fun v h1 h2 => ⟨printedCapacity_getElem? h1 h2, fun lv => ?_⟩,
    fun s => Level.ofBits_eq s.ecl⟩
  · obtain ⟨-, h1, h2⟩ := id hv
    obtain ⟨hD, hT, hNB, hC, hKS, hNS, hM, hR⟩ := info_field_bounds h1 h2 s.level
    refine ⟨_, _, _, _, busRead_settled (r := .infoSize) rfl rfl s, busRead_settled (r := .infoCw) rfl rfl s,
      busRead_settled (r := .infoBlk) rfl rfl s, busRead_settled (r := .infoRaw) rfl rfl s,
      ?_, ?_, hD, hT, ?_, hNB, hC, hKS, hNS, ?_, hM, hR⟩ <;>
      rw [State.readReg, State.info_of_atVersion hv, BitVec.toNat_ofNat]
    · exact Nat.mod_eq_of_lt (by unfold side; omega)
    · exact Nat.mod_eq_of_lt (by omega)
    · exact Nat.mod_eq_of_lt (by omega)
    · exact Nat.mod_eq_of_lt (by omega)
  · simp only [List.forall_mem_cons]
    exact ⟨busRead_info_of_illegal hv (r := .infoSize) rfl (by decide),
      busRead_info_of_illegal hv (r := .infoCw) rfl (by decide),
      busRead_info_of_illegal hv (r := .infoBlk) rfl (by decide),
      busRead_info_of_illegal hv (r := .infoRaw) rfl (by decide), by simp⟩
  · obtain ⟨-, -, -, -, hT, -, hNS, hle, -⟩ := capacity_bounds v h1 h2 lv
    exact ⟨by omega, hNS, hle, dataCodewords_eq_blocks h1 h2 lv⟩

end Sys2Proof.Machine
end

section
/-! SUPPORT. One step, case by case (R46, R61, R256, R264): the engine's turn, a transaction, an idle core, a faulted model. -/

namespace Sys2Proof.Machine

/-! ## The engine's turn -/

theorem step_of_no_event {s : State} (hf : s.faulted = false) (he : s.events = []) : step s = engineTurn s := by
  simp [step, stepLive, hf, he]

theorem step_of_event {s : State} {e : Event} {rest : List Event} (hf : s.faulted = false)
    (he : s.events = e :: rest) : step s = handleEvent { s with events := rest } e := by
  simp [step, stepLive, hf, he]

theorem step_of_faulted {s : State} (hf : s.faulted = true) : step s = .fault .readUnwritten := if_pos hf

theorem engineTurn_idle {s : State} (hp : s.pending = none) : engineTurn s = .next s := by
  rw [engineTurn, hp]

/-- The engine's turn runs the decoded pending command (R256); a fault is recorded (R264). -/
theorem engineTurn_of_decoded {s : State} {w : Word} {i : Instr} (hp : s.pending = some w)
    (hd : decodeWord w = some i) : engineTurn s = settle s (exec i s) := by
  rw [engineTurn, hp]
  simp only [completeWord, hd]

/-- What the engine's turn answers, by what the command answers. -/
theorem engineTurn_answers {s : State} {w : Word} {i : Instr} (hp : s.pending = some w)
    (hd : decodeWord w = some i) :
    (∀ t, exec i s = .next t → engineTurn s = .next t) ∧
    (∀ f, exec i s = .fault f → engineTurn s = .next { s with faulted := true }) := by
  rw [engineTurn_of_decoded hp hd]
  refine ⟨fun t ht => ?_, fun f hf => ?_⟩
  · rw [ht]; rfl
  · rw [hf]; rfl

theorem withFetchWord_toNat (s : State) (w : Word) : s.withFetchWord 32 w.toNat = s.issue w := by
  rw [State.withFetchWord, Nat.mod_eq_of_lt w.isLt, BitVec.ofNat_toNat, BitVec.setWidth_eq]

/-- The engine's turn is next after an issued word, in the state that accepted it (log 2). -/
theorem step_issue {s : State} (hf : s.faulted = false) (w : Word) : step (s.issue w) = engineTurn (s.accept w) :=
  step_of_event (s := s.issue w) hf rfl

/-! ## Transactions -/

/-- A host write of a register neither reads nor changes the events. -/
theorem hostWriteReg_withEvents (s : State) (rest : List Event) (w : Word) (r : Reg) :
    ({ s with events := rest } : State).hostWriteReg w r =
      ((s.hostWriteReg w r).1, { (s.hostWriteReg w r).2 with events := rest }) := by
  have hb : ({ s with events := rest } : State).busy = s.busy := rfl
  cases r with
  | cmd | cfg | rsSrc | rsLen | rsDst =>
    simp only [State.hostWriteReg, hb]
    cases s.busy <;> rfl
  | _ => rfl

theorem busWrite_withEvents (s : State) (rest : List Event) (addr : Addr) (w : Word) (strb : BitVec 4) :
    ({ s with events := rest } : State).busWrite addr w strb =
      ((s.busWrite addr w strb).1, { (s.busWrite addr w strb).2 with events := rest }) := by
  have hb : ({ s with events := rest } : State).busy = s.busy := rfl
  unfold State.busWrite
  split
  · rfl
  · split
    · exact hostWriteReg_withEvents s rest w _
    · rfl
  · rw [hb]
    cases s.busy <;> rfl

theorem busWrite_responses (s : State) (addr : Addr) (w : Word) (strb : BitVec 4) :
    (s.busWrite addr w strb).2.responses = s.responses := by
  rcases busWrite_cases s addr w strb with e | ⟨r, e⟩ | ⟨r, a, -, -, e⟩ <;> rw [e]
  rcases hostWriteReg_cases s w r with e | e | e | ⟨-, e⟩ | ⟨-, e⟩ | ⟨-, v, l, e⟩ | ⟨-, a, l, d, e⟩ <;> rw [e] <;> rfl

/-- A transaction does not touch the events after it. -/
theorem transact_write_withEvents (s : State) (rest : List Event) (addr : Addr) (w : Word) (strb : BitVec 4) :
    ({ s with events := rest } : State).transact (.write addr w strb) =
      { (s.busWrite addr w strb).2 with
        events := rest, responses := .write (s.busWrite addr w strb).1 :: s.responses } := by
  rw [State.transact, busWrite_withEvents, ← busWrite_responses s addr w strb]

theorem step_of_host {s : State} {x : Txn} {rest : List Event} (hf : s.faulted = false) (hr : s.rst = false)
    (he : s.events = .host x :: rest) : step s = .next (({ s with events := rest } : State).transact x) := by
  rw [step_of_event hf he]
  simp [handleEvent, hr]

/-! ## The statements -/

/-- Settles O5: the engine's turn and the transaction, at each place where they can stand. -/
theorem stepRunsPendingCommand : Obligations.StepRunsPendingCommand := by
  refine ⟨fun s w i hf hd => ⟨fun hp he => ?_, fun rest hp he => ?_, ?_⟩, fun s rest hf hr => ⟨fun addr he => ?_,
    fun addr w strb he => ?_⟩, fun s hf hp => ⟨fun he => ?_, fun rest he => ?_⟩⟩
  · rw [step_of_no_event hf he]
    exact engineTurn_answers hp hd
  · rw [step_of_event hf he]
    exact engineTurn_answers (s := { s with events := rest }) hp hd
  · rw [withFetchWord_toNat, step_issue hf]
    exact engineTurn_answers (s := s.accept w) rfl hd
  · rw [step_of_host hf hr he]
    rfl
  · rw [step_of_host hf hr he, transact_write_withEvents]
  · rw [step_of_no_event hf he, engineTurn_idle hp]
  · rw [step_of_event hf he]
    exact engineTurn_idle hp

/-- Settles O7: the step of a faulting command sets `faulted`, and a reset edge keeps it. -/
theorem faultedMachineIsStuck : Obligations.FaultedMachineIsStuck := by
  refine ⟨fun s => step_of_faulted, fun s i w f hf hp hd he hx => ?_, State.hardReset_faulted⟩
  refine ⟨_, ?_, step_of_faulted rfl, rfl⟩
  rw [step_of_no_event hf he, (engineTurn_answers hp hd).2 f hx]

end Sys2Proof.Machine
end

section
/-! SUPPORT. The host port address by address (R61 to R74, R261): what an address reaches, which transactions answer ERROR, and what the lanes of a region word store and give. -/

namespace Sys2Proof.Machine

/-! ## What an address reaches (R22, R62, R63) -/

/-- The mapped offsets of the register block (R22). -/
theorem ofOffset_isSome_iff : ∀ a < 0x100, a % 4 = 0 → ((Reg.ofOffset a).isSome = true ↔
    a ≤ 0x034 ∨ (0x040 ≤ a ∧ a ≤ 0x068) ∨ (0x080 ≤ a ∧ a ≤ 0x08C)) := by decide +kernel

/-- The registers a host cannot write while BUSY (R70). -/
def Reg.lockedWhileBusy : Reg → Bool
  | .cfg | .rsSrc | .rsLen | .rsDst => true
  | _ => false

/-- The locked registers by address (R22, R70). -/
theorem ofOffset_any_lockedWhileBusy : ∀ a < 0x100, ((Reg.ofOffset a).any Reg.lockedWhileBusy = true ↔
    a = 0x010 ∨ a = 0x060 ∨ a = 0x064 ∨ a = 0x068) := by decide +kernel

/-- The regions' windows are the region addresses; DATA, ECC, CW and GEN follow one another (R62). -/
theorem isRegionAddr_iff_exists (a : Nat) :
    IsRegionAddr a ↔ ∃ r ∈ Region.all, r.base ≤ a ∧ a < r.base + r.size := by
  simp only [IsRegionAddr, Region.all, List.mem_cons, List.not_mem_nil, or_false, exists_eq_or_imp, exists_eq_left,
    Region.base, Region.size]
  omega

theorem target_eq_nothing {addr : Addr}
    (h : addr.toNat % 4 ≠ 0 ∨ ¬ (IsRegisterAddr addr.toNat ∨ IsRegionAddr addr.toNat)) :
    target addr = .nothing := by
  by_cases h4 : addr.toNat % 4 = 0
  · obtain ⟨hreg, hrgn⟩ := not_or.1 (h.resolve_left (not_not_intro h4))
    rw [isRegionAddr_iff_exists] at hrgn
    by_cases ha : addr.toNat < 0x100
    · have hnone : Reg.ofOffset addr.toNat = none := by
        rw [← Option.not_isSome_iff_eq_none, ofOffset_isSome_iff _ ha h4]
        exact fun hm => hreg ⟨h4, hm⟩
      simp [target, h4, ha, hnone]
    · have hnone : (Region.all.find? fun r => r.base ≤ addr.toNat ∧ addr.toNat < r.base + r.size) = none := by
        rw [List.find?_eq_none]
        exact fun r hr hin => hrgn ⟨r, hr, of_decide_eq_true hin⟩
      simp only [target, h4, ne_eq, not_true_eq_false, if_false, ha, hnone]
  · simp [target, h4]

/-- A register's address reaches a register, which is a locked one at four of the addresses (R22, R70). -/
theorem exists_target_eq_reg {addr : Addr} (h : IsRegisterAddr addr.toNat) : ∃ r, target addr = .reg r ∧
    (r.lockedWhileBusy = true ↔
      addr.toNat = 0x010 ∨ addr.toNat = 0x060 ∨ addr.toNat = 0x064 ∨ addr.toNat = 0x068) := by
  obtain ⟨h4, hm⟩ := h
  have ha : addr.toNat < 0x100 := by omega
  obtain ⟨r, hr⟩ := Option.isSome_iff_exists.1 ((ofOffset_isSome_iff _ ha h4).2 hm)
  exact ⟨r, target_of_ofOffset h4 ha hr, by simpa [hr] using ofOffset_any_lockedWhileBusy _ ha⟩

/-- An aligned region address reaches a word of a region, and the word lies inside the region's window (R62, R63). -/
theorem exists_target_eq_word {addr : Addr} (h4 : addr.toNat % 4 = 0) (h : IsRegionAddr addr.toNat) :
    ∃ r, target addr = .word r addr.toNat ∧ r.base ≤ addr.toNat ∧ addr.toNat + 4 ≤ r.base + r.size := by
  have ha : ¬ addr.toNat < 0x100 := by unfold IsRegionAddr at h; omega
  obtain ⟨q, hq, hin⟩ := (isRegionAddr_iff_exists _).1 h
  have hsome : (Region.all.find? fun r => r.base ≤ addr.toNat ∧ addr.toNat < r.base + r.size).isSome = true :=
    List.find?_isSome.2 ⟨q, hq, decide_eq_true hin⟩
  obtain ⟨r, hr⟩ := Option.isSome_iff_exists.1 hsome
  have hmem : r.base ≤ addr.toNat ∧ addr.toNat < r.base + r.size := by
    simpa using List.find?_some hr
  refine ⟨r, by simp only [target, h4, ne_eq, not_true_eq_false, if_false, ha, hr], hmem.1, ?_⟩
  cases r <;> simp only [Region.base, Region.size] at hmem ⊢ <;> omega

theorem IsRegisterAddr.not_isRegionAddr {a : Nat} (h : IsRegisterAddr a) : ¬ IsRegionAddr a := by
  unfold IsRegisterAddr at h
  unfold IsRegionAddr
  omega

/-! ## Which transactions answer ERROR (R66, R69, R70, R261) -/

/-- A full-strobe register write fails exactly on a locked register while BUSY, and then changes nothing (R66, R70). -/
theorem hostWriteReg_resp (s : State) (w : Word) (r : Reg) :
    s.hostWriteReg w r = if r.lockedWhileBusy = true ∧ s.busy = true then (.error, s)
      else (.okay, (s.hostWriteReg w r).2) := by
  cases r with
  | cfg | rsSrc | rsLen | rsDst => cases hb : s.busy <;> simp [State.hostWriteReg, Reg.lockedWhileBusy, hb]
  | _ => rfl

theorem busRead_nothing {addr : Addr} (h : target addr = .nothing) (s : State) : s.busRead addr = (.error, 0) := by
  rw [State.busRead, h]

theorem busRead_word {addr : Addr} {r : Region} {a : Nat} (h : target addr = .word r a) (s : State) :
    s.busRead addr = if s.busy then (.error, 0) else (.okay, wordOf fun i => s.hostByte r (a + i)) := by
  rw [State.busRead, h]

theorem busWrite_nothing {addr : Addr} (h : target addr = .nothing) (s : State) (w : Word) (strb : BitVec 4) :
    s.busWrite addr w strb = (.error, s) := by
  rw [State.busWrite, h]

/-- A register write of any strobes (R66, R70). -/
theorem busWrite_reg_resp {addr : Addr} {r : Reg} (h : target addr = .reg r) (s : State) (w : Word) (strb : BitVec 4) :
    s.busWrite addr w strb = if strb ≠ 0b1111 ∨ (r.lockedWhileBusy = true ∧ s.busy = true) then (.error, s)
      else (.okay, (s.hostWriteReg w r).2) := by
  rw [State.busWrite, h]
  by_cases hs : strb = 0b1111
  · simp only [hs, if_true, ne_eq, not_true_eq_false, false_or]
    exact hostWriteReg_resp s w r
  · rw [if_pos (.inl hs)]
    exact if_neg hs

theorem busWrite_word {addr : Addr} {r : Region} {a : Nat} (h : target addr = .word r a) (s : State) (w : Word)
    (strb : BitVec 4) : s.busWrite addr w strb =
      if s.busy then (.error, s) else (.okay, { s with mem := s.mem.hostWriteWord r a w strb }) := by
  rw [State.busWrite, h]

/-- Settles O50, by what the address reaches: nothing, a register or a region's word. -/
theorem busErrorsExactly : Obligations.BusErrorsExactly := by
  intro s addr w strb a
  by_cases hn : a % 4 ≠ 0 ∨ ¬ (IsRegisterAddr a ∨ IsRegionAddr a)
  · have ht := target_eq_nothing hn
    rw [busRead_nothing ht, busWrite_nothing ht]
    exact ⟨iff_of_true rfl (by tauto), fun _ => rfl, iff_of_true rfl (by tauto), fun _ => rfl⟩
  push Not at hn
  obtain ⟨h4, h | h⟩ := hn
  · obtain ⟨r, ht, hlock⟩ := exists_target_eq_reg h
    have hrgn := h.not_isRegionAddr
    rw [busRead_reg ht, busWrite_reg_resp ht]
    simp only [hlock]
    refine ⟨iff_of_false nofun (by tauto), nofun, ?_, ?_⟩
    · split <;> simp only [reduceCtorEq] <;> tauto
    · split <;> simp
  · obtain ⟨r, ht, -⟩ := exists_target_eq_word h4 h
    have hreg : ¬ IsRegisterAddr a := fun hr => hr.not_isRegionAddr h
    have hlock : ¬ (a = 0x010 ∨ a = 0x060 ∨ a = 0x064 ∨ a = 0x068) := by unfold IsRegionAddr at h; omega
    rw [busRead_word ht, busWrite_word ht]
    cases hb : s.busy <;> simp [h4, h, hreg, hlock]

/-! ## What the lanes of a region word store (R67, R68) -/

/-- Inside a region's window the bytes that hold anything are those before GRID's padding (R41, R68). -/
theorem heldAt_iff {r : Region} {x : Nat} (hlo : r.base ≤ x) (hhi : x < r.base + r.size) :
    heldAt r x = true ↔ x < 0x10000 + 34225 := by
  rw [heldAt, decide_eq_true_eq]
  cases r with
  | grid => rfl
  | _ => simp only [Region.base, Region.held, Region.size] at hlo hhi ⊢; omega

theorem eq_grid_iff {r : Region} {x : Nat} (hlo : r.base ≤ x) (hhi : x < r.base + r.size) :
    r = .grid ↔ 0x10000 ≤ x := by
  cases r with
  | grid => exact iff_of_true rfl hlo
  | _ => simp only [Region.base, Region.size, reduceCtorEq, false_iff] at hlo hhi ⊢; omega

theorem storedByte_eq_ite (r : Region) (b : Byte) : storedByte r b = if r = .grid then b &&& 3 else b := by
  cases r <;> rfl

/-- What a read gives after a host write of one lane (R67, R68). -/
theorem Memory.read?_hostWrite (m : Memory) (r : Region) (a : Nat) (b : Byte) (x : Nat) :
    (m.hostWrite r a b).read? x = if x = a ∧ heldAt r x = true then some (storedByte r b) else m.read? x := by
  rw [hostWrite]
  by_cases hx : x = a
  · subst hx
    cases heldAt r x <;> simp [read?_write]
  · split
    · rw [read?_write, if_neg (by simp; omega), if_neg (by tauto)]
    · rw [if_neg (by tauto)]

/-- The write of one lane of a word under its strobe, as `Memory.hostWriteWord` folds it (R67). -/
def Memory.hostWriteLane (r : Region) (a : Nat) (w : Word) (strb : BitVec 4) (m : Memory) (i : Nat) : Memory :=
  if strb.getLsbD i then m.hostWrite r (a + i) (lane w i) else m

theorem Memory.hostWriteWord_eq_foldl (m : Memory) (r : Region) (a : Nat) (w : Word) (strb : BitVec 4) :
    m.hostWriteWord r a w strb = [0, 1, 2, 3].foldl (hostWriteLane r a w strb) m := rfl

theorem Memory.read?_hostWriteLane (m : Memory) (r : Region) (a : Nat) (w : Word) (strb : BitVec 4) (i x : Nat) :
    (hostWriteLane r a w strb m i).read? x =
      if x = a + i ∧ strb.getLsbD i = true ∧ heldAt r x = true then some (storedByte r (lane w i))
      else m.read? x := by
  unfold hostWriteLane
  cases strb.getLsbD i with
  | false => simp
  | true =>
    simp only [if_true, true_and, read?_hostWrite]

/-- What a read gives after lanes are written one after another: each lane of the list under its strobe, where the byte
holds anything. -/
theorem Memory.read?_foldl_hostWriteLane (r : Region) (a : Nat) (w : Word) (strb : BitVec 4) (x : Nat) (l : List Nat)
    (m : Memory) : (l.foldl (hostWriteLane r a w strb) m).read? x =
      if (a ≤ x ∧ x - a ∈ l) ∧ strb.getLsbD (x - a) = true ∧ heldAt r x = true then
        some (storedByte r (lane w (x - a)))
      else m.read? x := by
  induction l generalizing m with
  | nil => simp
  | cons i l ih =>
    rw [List.foldl_cons, ih, read?_hostWriteLane]
    by_cases hx : x = a + i
    · subst hx
      by_cases hlane : strb.getLsbD i = true ∧ heldAt r (a + i) = true <;> simp [hlane]
    · have hne : ¬ (a ≤ x ∧ x - a = i) := by omega
      simp only [hx, false_and, if_false, List.mem_cons, and_or_left, hne, false_or]

/-- What a read gives after a host write of a word: each lane under its strobe where the byte holds anything (R67). -/
theorem Memory.read?_hostWriteWord (m : Memory) (r : Region) (a : Nat) (w : Word) (strb : BitVec 4) (x : Nat) :
    (m.hostWriteWord r a w strb).read? x =
      if (a ≤ x ∧ x < a + 4) ∧ strb.getLsbD (x - a) = true ∧ heldAt r x = true then
        some (storedByte r (lane w (x - a)))
      else m.read? x := by
  have hlanes : a ≤ x ∧ x - a ∈ [0, 1, 2, 3] ↔ a ≤ x ∧ x < a + 4 := by simp; omega
  rw [hostWriteWord_eq_foldl, read?_foldl_hostWriteLane]
  simp only [hlanes]

/-- Settles O55: the word's bytes lie in one region's window, where the held bytes and the cells of GRID are told by
their addresses. -/
theorem regionWriteStoresLanes : Obligations.RegionWriteStoresLanes := by
  intro s addr w strb h4 hrgn hb
  obtain ⟨r, ht, hlo, hhi⟩ := exists_target_eq_word h4 hrgn
  refine ⟨_, by rw [busWrite_word ht, hb]; rfl, rfl, fun x => ?_⟩
  rw [Memory.read?_hostWriteWord]
  by_cases hx : addr.toNat ≤ x ∧ x < addr.toNat + 4
  · have hbase : r.base ≤ x := by omega
    have hend : x < r.base + r.size := by omega
    simp only [hx, heldAt_iff hbase hend, storedByte_eq_ite, eq_grid_iff hbase hend, true_and, lane]
  · rw [if_neg (by tauto), if_neg (by tauto)]

/-! ## What the lanes of a region word give (R65, R68, R73) -/

/-- Lane i of a little-endian word is its byte i (R65). -/
theorem lane_wordOf (f : Nat → Byte) {i : Nat} (hi : i < 4) : lane (wordOf f) i = f i := by
  simp only [lane, wordOf, BitVec.extractLsb'_append_eq_ite]
  interval_cases i <;> simp

theorem State.hostByte_written {s : State} {r : Region} {a : Nat} {b : Byte} (hh : heldAt r a = true)
    (h : s.mem.read? a = some b) : s.hostByte r a = b := by
  rw [hostByte, if_pos hh, h]

theorem State.hostByte_padding {s : State} {r : Region} {a : Nat} (hh : heldAt r a = false) : s.hostByte r a = 0 := by
  rw [hostByte, hh]
  rfl

/-- An unwritten cell of GRID reads as a code below 4 (R73). -/
theorem State.hostByte_grid_unwritten {s : State} {a : Nat} (h : s.mem.read? a = none) :
    (s.hostByte .grid a).toNat < 4 := by
  rw [hostByte, h]
  split
  · exact storedByte_grid_lt _
  · decide

/-- Settles O56, lane by lane: a written byte, GRID's padding, an unwritten cell of GRID. -/
theorem regionReadGivesWord : Obligations.RegionReadGivesWord := by
  refine fun s addr => ⟨fun h4 hrgn hb => ?_, _, _, rfl⟩
  obtain ⟨r, ht, hlo, hhi⟩ := exists_target_eq_word h4 hrgn
  have hheld : ∀ i, i < 4 → (heldAt r (addr.toNat + i) = true ↔ addr.toNat + i < 0x10000 + 34225) :=
    fun i hi => heldAt_iff (by omega) (by omega)
  refine ⟨_, by rw [busRead_word ht, hb]; rfl, fun i b hi hin hread => ?_, fun i hi hpad => ?_,
    fun i hi hg hread => ?_⟩
  · exact (lane_wordOf _ hi).trans (State.hostByte_written ((hheld i hi).2 hin) hread)
  · refine (lane_wordOf _ hi).trans (State.hostByte_padding ?_)
    rw [← Bool.not_eq_true, hheld i hi]
    omega
  · obtain rfl : r = .grid := (eq_grid_iff hlo (by omega)).2 hg
    rw [← lane, lane_wordOf _ hi]
    exact State.hostByte_grid_unwritten hread

end Sys2Proof.Machine
end

section
/-! SUPPORT. Commands that read a byte never written (R74, R264): a range with such a byte cannot be loaded, and what is computed from it is not there. -/

namespace Sys2Proof.Machine

/-! ## Reads -/

theorem State.load_eq_none {s : State} {r : Region} {i n k : Nat} (hk : k < n)
    (h : s.mem.read? (r.base + i + k) = none) : s.load r i n = none := by
  rw [← Option.not_isSome_iff_eq_none, State.load_isSome]
  intro hall
  simpa [h] using hall k hk

/-- Every byte before the end of block n lies in one of the blocks 0..n−1 (R148). -/
theorem exists_block_of_lt_blockStart (v : Nat) (lv : Level) {k : Nat} : ∀ n, k < blockStart v lv n →
    ∃ b < n, blockStart v lv b ≤ k ∧ k < blockStart v lv b + blockLength v lv b
  | 0, h => by simp [blockStart] at h
  | n + 1, h => by
    by_cases hk : k < blockStart v lv n
    · obtain ⟨b, hb, hin⟩ := exists_block_of_lt_blockStart v lv n hk
      exact ⟨b, by omega, hin⟩
    · exact ⟨n, by omega, by omega, by rwa [← blockStart_succ]⟩

/-- The data blocks hold all of DATA[0..D−1] (R146, R148). -/
theorem State.dataBlocks_eq_none {s : State} {v k : Nat} {lv : Level} (h1 : 1 ≤ v) (h2 : v ≤ 40)
    (hk : k < dataCodewords v lv) (h : s.mem.read? (0x1000 + k) = none) : s.dataBlocks v lv = none := by
  rw [← blockStart_blockCount v lv h1 h2] at hk
  obtain ⟨b, hb, hlo, hhi⟩ := exists_block_of_lt_blockStart v lv _ hk
  obtain ⟨j, rfl⟩ := Nat.exists_eq_add_of_le hlo
  refine (gather_eq_none _ _).2 ⟨b, List.mem_range.2 hb, State.load_eq_none (k := j) (by omega) ?_⟩
  rwa [Nat.add_assoc]

/-- The correction blocks hold all of ECC[0..NB·C−1] (R160). -/
theorem State.eccBlocks_eq_none {s : State} {v k : Nat} {lv : Level}
    (hk : k < blockCount v lv * eccPerBlock v lv) (h : s.mem.read? (0x2000 + k) = none) : s.eccBlocks v lv = none := by
  have hC : 0 < eccPerBlock v lv := Nat.pos_of_mul_pos_left (Nat.zero_lt_of_lt hk)
  have hb : k / eccPerBlock v lv < blockCount v lv := Nat.div_lt_of_lt_mul (by rwa [Nat.mul_comm])
  refine (gather_eq_none _ _).2 ⟨k / eccPerBlock v lv, List.mem_range.2 hb,
    State.load_eq_none (k := k % eccPerBlock v lv) (Nat.mod_lt _ hC) ?_⟩
  rwa [Nat.add_assoc, Nat.div_add_mod']

/-- The scored domain holds all cells of its square of the frame (R214, R220). -/
theorem State.domain_eq_none {s : State} {v y x : Nat} (hy : y < domainSide s.params v) (hx : x < domainSide s.params v)
    (h : s.mem.read? (0x10000 + ((domainStart s.params + y) * 185 + (domainStart s.params + x))) = none) :
    s.domain v = none := by
  rw [domain, Option.map_eq_none_iff]
  refine (gather_eq_none _ _).2 ⟨y, List.mem_range.2 hy, State.load_eq_none (k := x) hx ?_⟩
  rwa [Nat.add_assoc, Nat.add_assoc]

/-! ## Effects -/

theorem eccBlocksEffect_eq_none {v : Nat} {s : State} (h : s.dataBlocks v s.level = none) :
    eccBlocksEffect v s = none := by
  rw [eccBlocksEffect, h]
  rfl

theorem interleaveEffect_eq_none {v : Nat} {s : State}
    (h : s.dataBlocks v s.level = none ∨ s.eccBlocks v s.level = none) : interleaveEffect v s = none := by
  refine Option.eq_none_iff_forall_ne_some.2 fun u hu => ?_
  obtain ⟨d, e, hd, he, -⟩ := (interleaveEffect_eq_some v s u).1 hu
  simp [hd, he] at h

theorem encodeEffect_eq_none {v : Nat} {s : State} (h : s.dataBlocks v s.level = none) : encodeEffect v s = none := by
  rw [encodeEffect, eccBlocksEffect_eq_none h]
  rfl

theorem buildEffect_eq_none {m : MaskId} {v : Nat} {s : State} (h : s.load .cw 0 (totalCodewords v) = none) :
    buildEffect m v s = none := by
  rw [buildEffect, h]
  rfl

theorem autoMaskEffect_eq_none {v : Nat} {s : State} (h : s.load .cw 0 (totalCodewords v) = none) :
    autoMaskEffect v s = none := by
  rw [autoMaskEffect, h]
  rfl

/-- At a legal version a symbol command whose effect is not there faults (R74, R264). -/
theorem withVersion_faults {s : State} {v : Nat} (hv : s.AtVersion v) {effect : Nat → Option State}
    (h : effect v = none) : (withVersion s fun v => complete (effect v)) = .fault .readUnwritten := by
  obtain ⟨hver, h1, h2⟩ := hv
  rw [withVersion_of_legal s v _ hver h1 h2, h]
  rfl

/-! ## The commands -/

theorem execRsEnc_faults {c : Nat} {s : State} (hr : s.rsInRange c = true)
    (h : s.load .data s.rsSrc.toNat s.rsLen.toNat = none) : execRsEnc c s = .fault .readUnwritten := by
  rw [execRsEnc, hr, rsEncEffect, h]
  rfl

theorem execScore_faults {s : State} {v : Nat} (hv : s.AtVersion v) (h : s.domain v = none) :
    execScore s = .fault .readUnwritten := by
  obtain ⟨hver, h1, h2⟩ := hv
  rw [execScore, withVersion_of_legal s v _ hver h1 h2, h]

/-- Settles O22, command by command: the read that meets the unwritten byte gives none, and the command faults. -/
theorem unwrittenInputsFault : Obligations.UnwrittenInputsFault := by
  refine ⟨fun c k s hc hsrc hdst hk h => ?_, fun s v k m hv hk h => ?_, fun s v k hv hk h => ?_,
    fun s v k m hv hk h => ?_, fun s v y x hv hy hx h => ?_⟩
  · have hr : s.rsInRange c = true := by
      simp [State.rsInRange, hsrc, hdst, Nat.one_le_iff_ne_zero.1 hc]
    exact execRsEnc_faults hr (State.load_eq_none hk h)
  · obtain ⟨-, h1, h2⟩ := id hv
    have hd : s.dataBlocks v s.level = none := State.dataBlocks_eq_none h1 h2 hk h
    have he : encodeEffect v s = none := encodeEffect_eq_none hd
    exact ⟨withVersion_faults hv (eccBlocksEffect_eq_none hd),
      withVersion_faults hv (interleaveEffect_eq_none (.inl hd)),
      withVersion_faults hv (by rw [he]; rfl), withVersion_faults hv (by rw [he]; rfl)⟩
  · exact withVersion_faults hv (interleaveEffect_eq_none (.inr (State.eccBlocks_eq_none hk h)))
  · have hcw : s.load .cw 0 (totalCodewords v) = none := State.load_eq_none hk h
    exact ⟨withVersion_faults hv (buildEffect_eq_none hcw), withVersion_faults hv (autoMaskEffect_eq_none hcw)⟩
  · exact execScore_faults hv (State.domain_eq_none hy hx h)

end Sys2Proof.Machine
end

section
/-! SUPPORT. The decoder and the encoder are inverse (R91 to R100): a row of the opcode map is a command's fixed bits, and the word a row selects decodes to its command with the operands taken from the word. -/

namespace Sys2Proof

open Machine Laws.OpcodeField

/-! ## Fields of a word -/

theorem opcode_lt (w : Word) : opcode w < 256 := slice_lt w 7 0

/-- A field above the opcode of an assembled word is a field of what was put there. -/
theorem slice_assembleWord {opc : Nat} (hopc : opc < 256) (rest : Nat) {hi lo : Nat} (hlo : 8 ≤ lo) (hle : lo ≤ hi)
    (hhi : hi < 32) : slice (assembleWord opc rest) hi lo = rest / 2 ^ (lo - 8) % 2 ^ (hi + 1 - lo) := by
  have hlow : (opc + 2 ^ 8 * rest) / 2 ^ lo = rest / 2 ^ (lo - 8) :=
    calc (opc + 2 ^ 8 * rest) / 2 ^ lo
      _ = (opc + 2 ^ 8 * rest) / 2 ^ 8 / 2 ^ (lo - 8) := by
        rw [Nat.div_div_eq_div_mul, ← pow_add, Nat.add_sub_cancel' hlo]
      _ = rest / 2 ^ (lo - 8) := by rw [show (opc + 2 ^ 8 * rest) / 2 ^ 8 = rest by omega]
  rw [slice, assembleWord, BitVec.toNat_ofNat, show 32 = lo + (32 - lo) by omega, pow_add, Nat.mod_mul_right_div_self,
    Nat.mod_mod_of_dvd _ (pow_dvd_pow 2 (by omega)), hlow]

/-- A field is its low part and its high part. -/
theorem slice_split (w : Word) {hi mid lo : Nat} (h1 : lo ≤ mid) (h2 : mid ≤ hi) :
    slice w hi lo = slice w mid lo + 2 ^ (mid + 1 - lo) * slice w hi (mid + 1) := by
  simp only [slice]
  rw [show hi + 1 - lo = (mid + 1 - lo) + (hi + 1 - (mid + 1)) by omega, pow_add, Nat.mod_mul, Nat.div_div_eq_div_mul,
    ← pow_add, Nat.add_sub_cancel' (by omega : lo ≤ mid + 1)]

/-- A word is its opcode and the rest, in their places. -/
theorem assembleWord_opcode_slice (w : Word) : assembleWord (opcode w) (slice w 31 8) = w := by
  have hw : slice w 31 0 = w.toNat := by simp [slice, Nat.mod_eq_of_lt w.isLt]
  rw [assembleWord, opcode, ← slice_split w (Nat.zero_le 7) (by decide), hw, BitVec.ofNat_toNat, BitVec.setWidth_eq]

theorem assembleWord_eq {w : Word} {opc rest : Nat} (hop : opcode w = opc) (hrest : slice w 31 8 = rest) :
    assembleWord opc rest = w := by
  rw [← hop, ← hrest, assembleWord_opcode_slice]

theorem slice_eq_extractLsb' (w : Word) (hi lo : Nat) : slice w hi lo = (w.extractLsb' lo (hi + 1 - lo)).toNat := by
  rw [slice, BitVec.extractLsb'_toNat, Nat.shiftRight_eq_div_pow]

theorem decide_slice_eq_getLsbD (w : Word) (i : Nat) : decide (slice w i i = 1) = w.getLsbD i := by
  rw [slice, Nat.add_sub_cancel_left, pow_one, BitVec.getLsbD, Nat.testBit_eq_decide_div_mod_eq]

/-! ## The rows of the opcode map (R98) -/

/-- The lowest bit above the operands of a command: the row's pattern fixes the bits [31:fixedFrom] and the opcode. -/
def Instr.fixedFrom : Instr → Nat
  | .nop | .sreset | .eccBlocks | .interleave | .score | .autoMask | .generateAuto => 8
  | .gfAdd _ _ | .gfMul _ _ => 24
  | .gfInv _ | .gfExp _ | .gfLog _ | .genPoly _ | .rsEnc _ => 16
  | .buildFunc _ | .build _ | .generate _ => 11
  | .maskEval _ _ _ _ => 28

/-- What the pattern has in the bits [31:fixedFrom]: AUTO = 1 and MASK = 0 for GENERATE.AUTO (R97), else 0. -/
def Instr.fixedBits : Instr → Nat
  | .generateAuto => 2 ^ 3
  | _ => 0

/-- The command with its operands taken from the fields of `w` (R91 to R97, R99). -/
def Instr.withOperands (w : Word) : Instr → Instr
  | .gfAdd _ _ => .gfAdd (BitVec.ofNat 8 (slice w 15 8)) (BitVec.ofNat 8 (slice w 23 16))
  | .gfMul _ _ => .gfMul (BitVec.ofNat 8 (slice w 15 8)) (BitVec.ofNat 8 (slice w 23 16))
  | .gfInv _ => .gfInv (BitVec.ofNat 8 (slice w 15 8))
  | .gfExp _ => .gfExp (slice w 15 8)
  | .gfLog _ => .gfLog (BitVec.ofNat 8 (slice w 15 8))
  | .genPoly _ => .genPoly (slice w 15 8)
  | .rsEnc _ => .rsEnc (slice w 15 8)
  | .buildFunc _ => .buildFunc (maskField w 8)
  | .build _ => .build (maskField w 8)
  | .maskEval _ _ _ _ =>
    .maskEval (slice w 15 8) (slice w 23 16) (maskField w 24) (decide (slice w 27 27 = 1))
  | .generate _ => .generate (maskField w 8)
  | i => i

/-- The row of the command selects the word: the word has the bits the row's pattern fixes. -/
structure Instr.Selects (i : Instr) (w : Word) : Prop where
  opcode_eq : opcode w = opcodeOf i
  fixed_eq : slice w 31 i.fixedFrom = i.fixedBits

/-! ## A selected word decodes to the row's command -/

/-- Format X holds the rows of two commands: AUTO = 0 with any MASK, or AUTO = 1 with MASK = 0 (R97). -/
theorem decodeX_eq_some_iff (w : Word) (mk : MaskId → Instr) (auto i : Instr) :
    decodeX w mk auto = some i ↔
      (slice w 31 11 = 0 ∧ mk (maskField w 8) = i) ∨ (slice w 31 8 = 2 ^ 3 ∧ auto = i) := by
  have hmask : slice w 31 8 = slice w 10 8 + 2 ^ 3 * slice w 31 11 := slice_split w (by decide) (by decide)
  have hauto : slice w 31 11 = slice w 11 11 + 2 * slice w 31 12 := slice_split w (by decide) (by decide)
  have hm := slice_lt w 10 8
  have ha := slice_lt w 11 11
  simp only [decodeX, Option.ite_none_right_eq_some]
  constructor
  · rintro ⟨h12, h⟩
    split at h
    · exact .inl ⟨by omega, Option.some.inj h⟩
    · obtain ⟨h10, h⟩ := Option.ite_none_right_eq_some.1 h
      exact .inr ⟨by omega, Option.some.inj h⟩
  · rintro (⟨h, rfl⟩ | ⟨h, rfl⟩)
    · exact ⟨by omega, if_pos (by omega)⟩
    · exact ⟨by omega, by rw [if_neg (by omega), if_pos (by omega)]⟩

/-- With the opcode known the decoder has one format left, and the row fixes the bits that format requires. -/
theorem decodeWord_of_selects {i : Instr} {w : Word} (h : i.Selects w) : decodeWord w = some (i.withOperands w) := by
  obtain ⟨hop, hfixed⟩ := h
  unfold decodeWord
  rw [hop]
  cases i with
  | generate m => exact (decodeX_eq_some_iff _ _ _ _).2 (.inl ⟨hfixed, rfl⟩)
  | generateAuto => exact (decodeX_eq_some_iff _ _ _ _).2 (.inr ⟨hfixed, rfl⟩)
  | _ => exact if_pos hfixed

/-! ## The word of a command -/

theorem opcodeOf_lt (i : Instr) : opcodeOf i < 256 := by cases i <;> simp [opcodeOf]

/-- Every row fixes bits above the opcode, at least the four top ones. -/
theorem Instr.fixedFrom_bounds (i : Instr) : 8 ≤ i.fixedFrom ∧ i.fixedFrom ≤ 28 := by
  cases i <;> simp [Instr.fixedFrom]

theorem Instr.fixedBits_lt (i : Instr) : i.fixedBits < 2 ^ (32 - i.fixedFrom) := by
  cases i <;> simp [Instr.fixedBits, Instr.fixedFrom]

theorem slice_assembleWord_fixedFrom (i : Instr) (rest : Nat) :
    slice (assembleWord (opcodeOf i) rest) 31 i.fixedFrom = rest / 2 ^ (i.fixedFrom - 8) % 2 ^ (32 - i.fixedFrom) := by
  obtain ⟨h8, h28⟩ := i.fixedFrom_bounds
  exact slice_assembleWord (opcodeOf_lt i) rest h8 (by omega) (by decide)

theorem selects_assembleWord (i : Instr) {rest : Nat} (h : rest / 2 ^ (i.fixedFrom - 8) = i.fixedBits) :
    i.Selects (assembleWord (opcodeOf i) rest) where
  opcode_eq := opcode_assembleWord _ _ (opcodeOf_lt i)
  fixed_eq := by rw [slice_assembleWord_fixedFrom, h, Nat.mod_eq_of_lt i.fixedBits_lt]

/-- Operands in range stay below the bits the row fixes (R99, R102). -/
theorem selects_encode {i : Instr} (hi : i.WellFormed) : i.Selects (encode i) := by
  cases i with
  | gfAdd a b | gfMul a b => exact selects_assembleWord _ (Nat.div_eq_of_lt (by simp only [Instr.fixedFrom]; omega))
  | gfInv a | gfLog a => exact selects_assembleWord _ (Nat.div_eq_of_lt a.isLt)
  | gfExp n | genPoly n | rsEnc n => exact selects_assembleWord _ (Nat.div_eq_of_lt (of_decide_eq_true hi))
  | buildFunc m | build m | generate m => exact selects_assembleWord _ (Nat.div_eq_of_lt m.isLt)
  | maskEval x y m bit =>
    simp only [Instr.WellFormed, Instr.wf, Bool.and_eq_true, decide_eq_true_eq] at hi
    have hbit := bit.toNat_lt
    exact selects_assembleWord _ (Nat.div_eq_of_lt (by simp only [Instr.fixedFrom]; omega))
  | nop | sreset | eccBlocks | interleave | score | autoMask | generateAuto => exact selects_assembleWord _ rfl

theorem maskField_assembleWord {opc : Nat} (hopc : opc < 256) (rest : Nat) {lo : Nat} (hlo : 8 ≤ lo) (hhi : lo < 30) :
    maskField (assembleWord opc rest) lo = Fin.ofNat 8 (rest / 2 ^ (lo - 8)) := by
  rw [maskField, slice_assembleWord hopc rest hlo (by omega) (by omega)]
  apply Fin.ext
  rw [show lo + 2 + 1 - lo = 3 by omega]
  simp

theorem ofNat_slice_assembleWord {opc rest hi lo n : Nat} {a : BitVec n} (hopc : opc < 256) (hlo : 8 ≤ lo)
    (hle : lo ≤ hi) (hhi : hi < 32) (h : rest / 2 ^ (lo - 8) % 2 ^ (hi + 1 - lo) = a.toNat) :
    BitVec.ofNat n (slice (assembleWord opc rest) hi lo) = a := by
  rw [slice_assembleWord hopc rest hlo hle hhi, h, BitVec.ofNat_toNat, BitVec.setWidth_eq]

/-- The fields of the word of a command are its operands. -/
theorem withOperands_encode {i : Instr} (hi : i.WellFormed) : i.withOperands (encode i) = i := by
  cases i with
  | gfAdd a b | gfMul a b =>
    refine congrArg₂ _ (ofNat_slice_assembleWord ?_ ?_ ?_ ?_ ?_) (ofNat_slice_assembleWord ?_ ?_ ?_ ?_ ?_)
    all_goals omega
  | gfInv a | gfLog a =>
    refine congrArg _ (ofNat_slice_assembleWord ?_ ?_ ?_ ?_ ?_)
    all_goals omega
  | gfExp n | genPoly n | rsEnc n =>
    have hn : n < 256 := of_decide_eq_true hi
    refine congrArg _ ((slice_assembleWord ?_ n ?_ ?_ ?_).trans ?_)
    all_goals omega
  | buildFunc m | build m | generate m =>
    refine congrArg _ ((maskField_assembleWord ?_ m.val ?_ ?_).trans (Fin.ext ?_))
    all_goals simp
  | maskEval x y m bit =>
    simp only [Instr.WellFormed, Instr.wf, Bool.and_eq_true, decide_eq_true_eq] at hi
    obtain ⟨hx, hy⟩ := hi
    simp (disch := decide) only [Instr.withOperands, encode, slice_assembleWord, maskField_assembleWord,
      Instr.maskEval.injEq]
    refine ⟨by omega, by omega, Fin.ext ?_, ?_⟩
    · simp only [Fin.val_ofNat]
      omega
    · cases bit with
      | false => exact decide_eq_false (by simp only [Bool.toNat_false]; omega)
      | true => exact decide_eq_true (by simp only [Bool.toNat_true]; omega)
  | nop | sreset | eccBlocks | interleave | score | autoMask | generateAuto => rfl

theorem toNat_ofNat_slice (w : Word) {hi lo : Nat} :
    (BitVec.ofNat (hi + 1 - lo) (slice w hi lo)).toNat = slice w hi lo := by
  rw [BitVec.toNat_ofNat, Nat.mod_eq_of_lt (slice_lt w hi lo)]

theorem maskField_val (w : Word) (lo : Nat) : (maskField w lo).val = slice w (lo + 2) lo := by
  have h := slice_lt w (lo + 2) lo
  rw [show lo + 2 + 1 - lo = 3 by omega] at h
  exact Nat.mod_eq_of_lt h

theorem toNat_bit_slice (w : Word) (i : Nat) : (decide (slice w i i = 1)).toNat = slice w i i := by
  have h := slice_lt w i i
  rw [Nat.add_sub_cancel_left] at h
  obtain h | h : slice w i i = 0 ∨ slice w i i = 1 := by omega
  all_goals simp [h]

/-- A selected word has nothing beyond what its row fixes and the operands it carries. -/
theorem encode_withOperands {i : Instr} {w : Word} (h : i.Selects w) : encode (i.withOperands w) = w := by
  obtain ⟨hop, hfixed⟩ := h
  have hA : slice w 31 8 = slice w 15 8 + 2 ^ 8 * slice w 31 16 := slice_split w (by decide) (by decide)
  have hB : slice w 31 16 = slice w 23 16 + 2 ^ 8 * slice w 31 24 := slice_split w (by decide) (by decide)
  have ha : (BitVec.ofNat 8 (slice w 15 8)).toNat = slice w 15 8 := toNat_ofNat_slice w
  have hb : (BitVec.ofNat 8 (slice w 23 16)).toNat = slice w 23 16 := toNat_ofNat_slice w
  cases i with
  | nop | sreset | eccBlocks | interleave | score | autoMask | generateAuto => exact assembleWord_eq hop hfixed
  | gfAdd a b | gfMul a b =>
    have h24 : slice w 31 24 = 0 := hfixed
    refine assembleWord_eq hop ?_
    rw [ha, hb]
    omega
  | gfInv a | gfLog a =>
    have h16 : slice w 31 16 = 0 := hfixed
    refine assembleWord_eq hop ?_
    rw [ha]
    omega
  | gfExp n | genPoly n | rsEnc n =>
    have h16 : slice w 31 16 = 0 := hfixed
    exact assembleWord_eq hop (by omega)
  | buildFunc m | build m | generate m =>
    have h11 : slice w 31 11 = 0 := hfixed
    have hmask : slice w 31 8 = slice w 10 8 + 2 ^ 3 * slice w 31 11 := slice_split w (by decide) (by decide)
    have hm : (maskField w 8).val = slice w 10 8 := maskField_val w 8
    refine assembleWord_eq hop ?_
    rw [hm]
    omega
  | maskEval x y m bit =>
    have h28 : slice w 31 28 = 0 := hfixed
    have hmask : slice w 31 24 = slice w 26 24 + 2 ^ 3 * slice w 31 27 := slice_split w (by decide) (by decide)
    have hbit : slice w 31 27 = slice w 27 27 + 2 * slice w 31 28 := slice_split w (by decide) (by decide)
    have hm : (maskField w 24).val = slice w 26 24 := maskField_val w 24
    refine assembleWord_eq hop ?_
    rw [hm, toNat_bit_slice]
    omega

/-! ## The decoder, said once -/

/-- A word that decodes is selected by a row. -/
theorem exists_selects_of_decodeWord {w : Word} {i : Instr} (h : decodeWord w = some i) :
    ∃ j : Instr, j.Selects w := by
  unfold decodeWord at h
  split at h
  next hop => exact ⟨.nop, hop, (Option.ite_none_right_eq_some.1 h).1⟩
  next hop => exact ⟨.sreset, hop, (Option.ite_none_right_eq_some.1 h).1⟩
  next hop => exact ⟨.gfAdd 0 0, hop, (Option.ite_none_right_eq_some.1 h).1⟩
  next hop => exact ⟨.gfMul 0 0, hop, (Option.ite_none_right_eq_some.1 h).1⟩
  next hop => exact ⟨.gfInv 0, hop, (Option.ite_none_right_eq_some.1 h).1⟩
  next hop => exact ⟨.gfExp 0, hop, (Option.ite_none_right_eq_some.1 h).1⟩
  next hop => exact ⟨.gfLog 0, hop, (Option.ite_none_right_eq_some.1 h).1⟩
  next hop => exact ⟨.genPoly 0, hop, (Option.ite_none_right_eq_some.1 h).1⟩
  next hop => exact ⟨.rsEnc 0, hop, (Option.ite_none_right_eq_some.1 h).1⟩
  next hop => exact ⟨.eccBlocks, hop, (Option.ite_none_right_eq_some.1 h).1⟩
  next hop => exact ⟨.interleave, hop, (Option.ite_none_right_eq_some.1 h).1⟩
  next hop => exact ⟨.buildFunc 0, hop, (Option.ite_none_right_eq_some.1 h).1⟩
  next hop => exact ⟨.build 0, hop, (Option.ite_none_right_eq_some.1 h).1⟩
  next hop => exact ⟨.maskEval 0 0 0 false, hop, (Option.ite_none_right_eq_some.1 h).1⟩
  next hop => exact ⟨.score, hop, (Option.ite_none_right_eq_some.1 h).1⟩
  next hop => exact ⟨.autoMask, hop, (Option.ite_none_right_eq_some.1 h).1⟩
  next hop =>
    obtain ⟨h11, -⟩ | ⟨h8, -⟩ := (decodeX_eq_some_iff w _ _ i).1 h
    · exact ⟨.generate 0, hop, h11⟩
    · exact ⟨.generateAuto, hop, h8⟩
  next => exact nomatch h

theorem Instr.withOperands_withOperands (w : Word) (i : Instr) :
    (i.withOperands w).withOperands w = i.withOperands w := by cases i <;> rfl

/-- The row of a command is the same whatever its operands. -/
theorem Instr.Selects.withOperands {i : Instr} {w w' : Word} (h : i.Selects w) : (i.withOperands w').Selects w := by
  obtain ⟨hop, hfixed⟩ := h
  cases i <;> exact ⟨hop, hfixed⟩

/-- The decoder, both ways: a word decodes to a command exactly when the command's row selects it and the word carries
the command's operands (R98, R100). -/
theorem decodeWord_eq_some_iff (w : Word) (i : Instr) :
    decodeWord w = some i ↔ i.Selects w ∧ i.withOperands w = i := by
  refine ⟨fun h => ?_, fun ⟨hs, ho⟩ => by rw [decodeWord_of_selects hs, ho]⟩
  obtain ⟨j, hj⟩ := exists_selects_of_decodeWord h
  obtain rfl : j.withOperands w = i := Option.some.inj ((decodeWord_of_selects hj).symm.trans h)
  exact ⟨hj.withOperands, j.withOperands_withOperands w⟩

/-- Settles O1: the row of a command selects its word, and reading the operands back gives them. -/
theorem decodeEncodeRoundTrip : Obligations.DecodeEncodeRoundTrip := fun i hi =>
  (decodeWord_eq_some_iff _ i).2 ⟨selects_encode hi, withOperands_encode hi⟩

/-- Settles O2: a word that decodes is selected by its command's row, so nothing stands in it beside the row's fixed bits
and the operands. -/
theorem decodedWordIsItsEncoding : Obligations.DecodedWordIsItsEncoding := fun w i h => by
  obtain ⟨hs, ho⟩ := (decodeWord_eq_some_iff w i).1 h
  exact ⟨decodeWord_wellFormed h, by rw [← ho, encode_withOperands hs]⟩

/-! ## The (match, mask) pairs of R98 -/

/-- The mask of the rows that fix the opcode and the bits [31:k]. -/
def rowMask (k : Nat) : Word := BitVec.allOnes 32 <<< k ||| 0xFF

/-- A masked word keeps its opcode and its bits [31:k]. -/
theorem and_rowMask (w : Word) {k : Nat} (h8 : 8 ≤ k) (hk : k ≤ 32) :
    w &&& rowMask k = assembleWord (opcode w) (2 ^ (k - 8) * slice w 31 k) := by
  have hdiv : slice w 31 k = w.toNat / 2 ^ k := by
    refine Nat.mod_eq_of_lt (Nat.div_lt_of_lt_mul ?_)
    rw [← pow_add, Nat.add_sub_cancel' hk]
    exact w.isLt
  have hhigh : (w &&& BitVec.allOnes 32 <<< k).toNat = 2 ^ k * slice w 31 k := by
    rw [← BitVec.shiftLeft_ushiftRight, hdiv, BitVec.toNat_shiftLeft, BitVec.toNat_ushiftRight, Nat.shiftLeft_eq,
      Nat.shiftRight_eq_div_pow, Nat.mod_eq_of_lt ((Nat.div_mul_le_self _ _).trans_lt w.isLt), Nat.mul_comm]
  have hlow : (w &&& 0xFF).toNat = opcode w := by
    rw [BitVec.toNat_and, opcode, slice, Nat.pow_zero, Nat.div_one]
    exact Nat.and_two_pow_sub_one_eq_mod _ 8
  have hsum : (w &&& rowMask k).toNat = opcode w + 2 ^ 8 * (2 ^ (k - 8) * slice w 31 k) := by
    rw [rowMask, BitVec.and_or_distrib_left, BitVec.toNat_or, hhigh, hlow,
      ← Nat.two_pow_add_eq_or_of_lt ((opcode_lt w).trans_le (Nat.pow_le_pow_right (Nat.succ_pos 1) h8)),
      ← Nat.mul_assoc, ← pow_add, Nat.add_sub_cancel' h8, Nat.add_comm]
  rw [assembleWord, ← hsum, BitVec.ofNat_toNat, BitVec.setWidth_eq]

/-- The row's (match, mask) pair selects a word exactly when the word has the row's fixed bits. -/
theorem and_rowMask_eq_iff (i : Instr) (w : Word) :
    w &&& rowMask i.fixedFrom = assembleWord (opcodeOf i) (2 ^ (i.fixedFrom - 8) * i.fixedBits) ↔ i.Selects w := by
  obtain ⟨h8, h28⟩ := i.fixedFrom_bounds
  have hpos : 0 < 2 ^ (i.fixedFrom - 8) := Nat.two_pow_pos _
  rw [and_rowMask w h8 (by omega)]
  refine ⟨fun h => ⟨?_, ?_⟩, fun ⟨hop, hfixed⟩ => by rw [hop, hfixed]⟩
  · have hop := congrArg opcode h
    rwa [opcode_assembleWord _ _ (opcode_lt w), opcode_assembleWord _ _ (opcodeOf_lt i)] at hop
  · have hfixed := congrArg (slice · 31 i.fixedFrom) h
    simp only [slice_assembleWord (opcode_lt w) _ h8 (by omega : i.fixedFrom ≤ 31) (Nat.lt_succ_self 31),
      slice_assembleWord_fixedFrom, Nat.mul_div_cancel_left _ hpos] at hfixed
    rwa [Nat.mod_eq_of_lt (slice_lt w 31 i.fixedFrom), Nat.mod_eq_of_lt i.fixedBits_lt] at hfixed

/-- The row of a command: its match, its mask, and the command. -/
def Instr.row (i : Instr) : Word × Word × Instr :=
  (assembleWord (opcodeOf i) (2 ^ (i.fixedFrom - 8) * i.fixedBits), rowMask i.fixedFrom, i)

/-- One command of each of the 18 rows, with the operands the word carries. -/
def rowCommands (w : Word) : List Instr :=
  [.nop, .sreset, .gfAdd 0 0, .gfMul 0 0, .gfInv 0, .gfExp 0, .gfLog 0, .genPoly 0, .rsEnc 0, .eccBlocks, .interleave,
    .buildFunc 0, .build 0, .maskEval 0 0 0 false, .score, .autoMask, .generate 0, .generateAuto].map
    (Instr.withOperands w)

theorem mem_rowCommands_iff (w : Word) (i : Instr) : i ∈ rowCommands w ↔ i.withOperands w = i := by
  constructor
  · intro h
    obtain ⟨j, -, rfl⟩ := List.mem_map.1 h
    exact j.withOperands_withOperands w
  · intro h
    rw [← h]
    cases i <;> simp [rowCommands, Instr.withOperands]

/-- Settles O3: the statement's rows are `Instr.row` of the 18 commands of `rowCommands`, over which
`decodeWord_eq_some_iff` gives all three clauses; two rows that select one word decode it to one command. -/
theorem opcodeRowsSelectCommands : Obligations.OpcodeRowsSelectCommands := by
  intro w byteAt maskAt rows
  have hA : slice w 15 8 = (byteAt 8).toNat := slice_eq_extractLsb' w 15 8
  have hB : slice w 23 16 = (byteAt 16).toNat := slice_eq_extractLsb' w 23 16
  have hmask (lo : Nat) : maskField w lo = maskAt lo := by
    rw [maskField, slice_eq_extractLsb', show lo + 2 + 1 - lo = 3 by omega]
  have hrows : rows = (rowCommands w).map Instr.row := by
    simp only [rowCommands, List.map_cons, List.map_nil, Instr.withOperands, hA, hB, hmask, decide_slice_eq_getLsbD,
      BitVec.ofNat_toNat, BitVec.setWidth_eq, Instr.row, opcodeOf, Instr.fixedFrom, Instr.fixedBits]
    rfl
  have hmem (r : Word × Word × Instr) : r ∈ rows ↔ ∃ i : Instr, i.withOperands w = i ∧ i.row = r := by
    simp only [hrows, List.mem_map, mem_rowCommands_iff]
  have hdec (i : Instr) (ho : i.withOperands w = i) (h : w &&& i.row.2.1 = i.row.1) : decodeWord w = some i :=
    (decodeWord_eq_some_iff w i).2 ⟨(and_rowMask_eq_iff i w).1 h, ho⟩
  refine ⟨fun r hr h => ?_, fun hno => ?_, fun r hr r' hr' h h' => ?_⟩
  · obtain ⟨i, ho, rfl⟩ := (hmem r).1 hr
    exact hdec i ho h
  · refine Option.eq_none_iff_forall_ne_some.2 fun i hi => ?_
    obtain ⟨hs, ho⟩ := (decodeWord_eq_some_iff w i).1 hi
    exact hno i.row ((hmem _).2 ⟨i, ho, rfl⟩) ((and_rowMask_eq_iff i w).2 hs)
  · obtain ⟨i, ho, rfl⟩ := (hmem r).1 hr
    obtain ⟨j, ho', rfl⟩ := (hmem r').1 hr'
    obtain rfl : i = j := Option.some.inj ((hdec i ho h).symm.trans (hdec j ho' h'))
    rfl

/-- Settles O4, each word by running the decoder on it. -/
theorem sampleWordsDecode : Obligations.SampleWordsDecode := by
  unfold Obligations.SampleWordsDecode
  decide

end Sys2Proof
end

section
/-! SUPPORT. The commands GF_ADD and GF_EXP, which raise nothing whatever their operands (R118, R121). -/

namespace Sys2Proof.Machine

theorem exec_gfAdd (a b : Byte) (s : State) : exec (.gfAdd a b) s = .next (s.setResult (a ^^^ b)).finish := rfl

theorem exec_gfExp (n : Nat) (s : State) :
    exec (.gfExp n) s = .next (s.setResult (gfExp s.params.gfPoly n)).finish := rfl

/-- The EXP lookup of R115 reads the table of R111 at the exponent reduced modulo 255, at every polynomial. -/
theorem gfExp_eq_expEntry (p : BitVec 9) (n : Nat) : gfExp p n = expEntry p (n % 255) := by
  rw [gfExp, expEntry_eq_power]

/-- Settles O9: the effect of GF_ADD is the statement's next state, RESULT first and then the completion. -/
theorem gfAddResult : Obligations.GfAddResult := exec_gfAdd

/-- Settles O12: the power GF_EXP writes is the entry of the recurrence of R111, whose iterates are the powers of 2. -/
theorem gfExpResult : Obligations.GfExpResult := by
  intro n s _
  rw [exec_gfExp, gfExp_eq_expEntry]
  rfl

end Sys2Proof.Machine
end

section
/-! SUPPORT. The Reed-Solomon commands: GEN_POLY and RS_ENC against the recurrence of R130 and the division of R132, whose codewords vanish at every root of the generator (R133), and ECC_BLOCKS over all blocks (R148, R150). -/

namespace Sys2Proof.Machine

/-! ## Polynomial values by Horner's rule -/

@[simp] theorem polyValue_nil (p : BitVec 9) (x : Byte) : polyValue p x [] = 0 := rfl

@[simp] theorem polyValue_concat (p : BitVec 9) (x : Byte) (l : List Byte) (c : Byte) :
    polyValue p x (l ++ [c]) = gfMul p (polyValue p x l) x ^^^ c := by
  simp [polyValue]

/-- The value of the sum of two polynomials is the sum of their values. -/
theorem polyValue_zipWith_gfAdd (p : BitVec 9) (x : Byte) (k l : List Byte) (h : k.length = l.length) :
    polyValue p x (List.zipWith gfAdd k l) = polyValue p x k ^^^ polyValue p x l := by
  induction k using List.reverseRecOn generalizing l with
  | nil => simp [List.length_eq_zero_iff.1 h.symm]
  | append_singleton k a ih =>
    obtain ⟨l, b, rfl⟩ := List.eq_nil_or_concat l |>.resolve_left (by rintro rfl; simp at h)
    have hkl : k.length = l.length := by simpa using h
    rw [List.concat_eq_append, List.zipWith_append hkl, List.zipWith_cons_cons, List.zipWith_nil_right]
    rw [polyValue_concat, polyValue_concat, polyValue_concat, ih l hkl, gfMul_xor_left, gfAdd]
    ac_rfl

/-- Scaling a polynomial scales its value. -/
theorem polyValue_map_gfMul (p : BitVec 9) (x a : Byte) (l : List Byte) :
    polyValue p x (l.map (gfMul p · a)) = gfMul p (polyValue p x l) a := by
  induction l using List.reverseRecOn with
  | nil => simp
  | append_singleton l b ih =>
    rw [List.map_append, List.map_singleton, polyValue_concat, polyValue_concat, ih, gfMul_xor_left, gfMul_assoc,
      gfMul_assoc, gfMul_comm p a x]

theorem polyValue_append_zeros (p : BitVec 9) (x : Byte) (l : List Byte) (h : polyValue p x l = 0) (n : Nat) :
    polyValue p x (l ++ List.replicate n 0) = 0 := by
  induction n with
  | zero => simpa using h
  | succ n ih => rw [List.replicate_succ', ← List.append_assoc, polyValue_concat, ih]; simp

/-- The value of a sequence of coefficients is the one with its last coefficients 0, plus the value of these. -/
theorem polyValue_append (p : BitVec 9) (x : Byte) (l k : List Byte) :
    polyValue p x (l ++ k) = polyValue p x (l ++ List.replicate k.length 0) ^^^ polyValue p x k := by
  induction k using List.reverseRecOn with
  | nil => simp
  | append_singleton k c ih =>
    rw [← List.append_assoc, polyValue_concat, ih, List.length_append, List.length_singleton, List.replicate_succ',
      ← List.append_assoc, polyValue_concat, polyValue_concat, gfMul_xor_left]
    simp [BitVec.xor_assoc]

/-- Leading zeros leave the value of a polynomial. -/
theorem polyValue_zero_cons (p : BitVec 9) (x : Byte) (l : List Byte) : polyValue p x (0 :: l) = polyValue p x l := by
  simp [polyValue]

/-! ## The generator polynomial (R130) -/

theorem polyValue_timesRoot (p : BitVec 9) (x : Byte) (g : List Byte) (root : Byte) :
    polyValue p x (timesRoot p g root) = gfMul p (polyValue p x g) (x ^^^ root) := by
  rw [timesRoot, polyValue_zipWith_gfAdd p x _ _ (by simp), polyValue_concat, polyValue_zero_cons, polyValue_map_gfMul,
    gfMul_xor_right]
  simp

/-- Every power of 2 below C is a root of g_C (R130): its own factor vanishes, and so does the product. -/
theorem polyValue_genPoly_root (p : BitVec 9) {c i : Nat} (hi : i < c) :
    polyValue p (gfExp p i) (genPoly p c) = 0 := by
  induction c with
  | zero => omega
  | succ c ih =>
    rw [genPoly, polyValue_timesRoot]
    rcases Nat.lt_succ_iff_lt_or_eq.1 hi with h | rfl
    · simp [ih h]
    · simp

/-- g_C is monic: its leading coefficient is 1 (R130). -/
theorem genPoly_eq_one_cons (p : BitVec 9) (c : Nat) : genPoly p c = 1 :: (genPoly p c).tail := by
  induction c with
  | zero => rfl
  | succ c ih => rw [genPoly, ih]; simp [timesRoot, gfAdd]

/-! ## The remainder (R132) -/

/-- A zero leading coefficient is dropped. -/
@[simp] theorem eliminate_zero_cons (p : BitVec 9) (g rest : List Byte) : eliminate p g (0#8 :: rest) = rest := by
  simp [eliminate]

/-- Eliminating a leading coefficient adds that multiple of the monic generator that makes it 0. -/
theorem zero_cons_eliminate (p : BitVec 9) (g : List Byte) {lead : Byte} (h : lead ≠ 0) (rest : List Byte) :
    0 :: eliminate p (1 :: g) (lead :: rest) = List.zipWith gfAdd (lead :: rest)
      ((1 :: g).map (gfMul p · lead) ++ List.replicate (rest.length - g.length) 0) := by
  rw [eliminate, if_neg h]
  simp [gfAdd]

/-- Eliminating the leading coefficient with a monic generator subtracts a multiple of it: the value at each of its roots
stays. -/
theorem polyValue_eliminate (p : BitVec 9) (x : Byte) (g r : List Byte) (h : (1 :: g).length ≤ r.length)
    (hg : polyValue p x (1 :: g) = 0) : polyValue p x (eliminate p (1 :: g) r) = polyValue p x r := by
  cases r with
  | nil => simp at h
  | cons lead rest =>
    by_cases h0 : lead = 0
    · rw [h0, polyValue_zero_cons]
      exact congrArg _ (eliminate_zero_cons p _ rest)
    · have hmultiple := polyValue_append_zeros p x ((1 :: g).map (gfMul p · lead))
        (by rw [polyValue_map_gfMul, hg]; simp) (rest.length - g.length)
      have hlen : g.length ≤ rest.length := Nat.le_of_succ_le_succ h
      rw [← polyValue_zero_cons, zero_cons_eliminate p g h0, polyValue_zipWith_gfAdd p x _ _ (by simp; omega), hmultiple]
      simp

/-- After k eliminations k coefficients are gone, and the value at every root of the generator is that of the start. -/
theorem repeat_eliminate (p : BitVec 9) (x : Byte) (g r : List Byte) (hg : polyValue p x (1 :: g) = 0) (k : Nat)
    (hk : k + g.length ≤ r.length) :
    (Nat.repeat (eliminate p (1 :: g)) k r).length + k = r.length ∧
      polyValue p x (Nat.repeat (eliminate p (1 :: g)) k r) = polyValue p x r := by
  induction k with
  | zero => exact ⟨rfl, rfl⟩
  | succ k ih =>
    obtain ⟨hlen, hval⟩ := ih (by omega)
    have hle : (1 :: g).length ≤ (Nat.repeat (eliminate p (1 :: g)) k r).length := by
      rw [List.length_cons]; omega
    have hdrop := eliminate_length p (1 :: g) _ hle (by simp)
    exact ⟨by rw [Nat.repeat]; omega, by rw [Nat.repeat, polyValue_eliminate p x g _ hle hg, hval]⟩

/-- At every root of the generator the remainder has the value of the shifted message (R132). -/
theorem polyValue_rsRemainder_root (p : BitVec 9) (m : List Byte) {c i : Nat} (hi : i < c) :
    polyValue p (gfExp p i) (rsRemainder p m c) = polyValue p (gfExp p i) (m ++ List.replicate c 0) := by
  have hg := polyValue_genPoly_root p hi
  have hl := genPoly_length p c
  rw [genPoly_eq_one_cons] at hg hl
  rw [rsRemainder, genPoly_eq_one_cons]
  exact (repeat_eliminate p _ _ _ hg m.length (by simp at hl ⊢; omega)).2

/-- Settles O18: adding the remainder to the shifted message leaves a value that cancels at every root of g_C. -/
theorem codewordHasGeneratorRoots : Obligations.CodewordHasGeneratorRoots := by
  intro p m c
  refine ⟨rsRemainder_length p m c, fun i hi => ?_⟩
  rw [polyValue_append, rsRemainder_length, polyValue_rsRemainder_root p m hi, BitVec.xor_self]
  rfl

/-! ## GEN_POLY (R134) -/

theorem zipWith_gfAdd_getD (k l : List Byte) (h : k.length = l.length) (j : Nat) :
    (List.zipWith gfAdd k l).getD j 0 = k.getD j 0 ^^^ l.getD j 0 := by
  rcases Nat.lt_or_ge j k.length with hj | hj
  · simp [List.getD_eq_getElem?_getD, hj, h ▸ hj, gfAdd]
  · simp [List.getD_eq_getElem?_getD, hj, h ▸ hj]

/-- Coefficient j of g·(x + root), with 0 beyond the end of g (R130). -/
theorem timesRoot_getD (p : BitVec 9) (g : List Byte) (root : Byte) (j : Nat) :
    (timesRoot p g root).getD j 0 = g.getD j 0 ^^^ gfMul p (if j = 0 then 0 else g.getD (j - 1) 0) root := by
  have hend : (g ++ [0]).getD j 0 = g.getD j 0 := by
    rcases Nat.lt_or_ge j g.length with hj | hj
    · rw [List.getD_append _ _ _ _ hj]
    · rw [List.getD_append_right _ _ _ _ hj, List.getD_eq_default _ _ hj]
      cases j - g.length <;> simp
  rw [timesRoot, zipWith_gfAdd_getD _ _ (by simp), hend]
  cases j with
  | zero => simp
  | succ j =>
    have hmap : (g.map (gfMul p · root)).getD j 0 = gfMul p (g.getD j 0) root := by
      simpa using List.getD_map (l := g) (d := 0) (n := j) (gfMul p · root)
    rw [List.getD_cons_succ, hmap]
    rfl

/-- The list of R130's coefficients holds those of its recurrence, with 0 beyond its end. -/
theorem genPoly_getD (p : BitVec 9) (c j : Nat) : (genPoly p c).getD j 0 = genCoeff p c j := by
  induction c generalizing j with
  | zero => cases j <;> simp [genPoly, genCoeff]
  | succ c ih => rw [genPoly, timesRoot_getD, ih, ih, genCoeff]

theorem genPoly_getElem? (p : BitVec 9) {c j : Nat} (hj : j ≤ c) : (genPoly p c)[j]? = some (genCoeff p c j) := by
  have hlt : j < (genPoly p c).length := by rw [genPoly_length]; omega
  rw [← genPoly_getD, List.getD_eq_getElem _ _ hlt, List.getElem?_eq_getElem hlt]

/-- Everything a command whose effect is one store does (R74, R259): its bytes are written, and nothing else changes. -/
theorem writes_of_exec_store {i : Instr} {s : State} {r : Region} {j : Nat} {bs : List Byte} (base : Nat)
    (h : exec i s = .next (s.store r j bs).finish) (hbase : r.base + j = base) :
    ∃ t, exec i s = .next t ∧ OnlyMemoryChanged s t ∧ ∀ a, t.mem.read? a =
      if base ≤ a ∧ a < base + bs.length then bs[a - base]? else s.mem.read? a :=
  ⟨_, h, rfl, hbase ▸ s.store_read? r j bs⟩

theorem exec_genPoly {c : Nat} (hc : c ≠ 0) (s : State) :
    exec (.genPoly c) s = .next (s.store .gen 0 (genPoly s.params.gfPoly c)).finish :=
  (execGenPoly_eq c s).trans (if_neg hc)

/-- Settles O16: the stored list holds the coefficients of the recurrence. -/
theorem genPolyWritesGenerator : Obligations.GenPolyWritesGenerator := by
  intro c s h1 _
  obtain ⟨t, ht, hframe, hread⟩ := writes_of_exec_store 0x4000 (exec_genPoly (c := c) (by omega) s) rfl
  refine ⟨t, ht, hframe, fun a => (hread a).trans ?_⟩
  rw [genPoly_length]
  split
  · next ha => rw [if_pos (by omega), genPoly_getElem? _ (by omega)]
  · next ha => rw [if_neg (by omega)]

/-! ## RS_ENC (R135) -/

theorem exec_rsEnc {c : Nat} {s : State} {m : List Byte} (hr : s.rsInRange c = true)
    (hl : s.load .data s.rsSrc.toNat s.rsLen.toNat = some m) :
    exec (.rsEnc c) s = .next (s.store .ecc s.rsDst.toNat (rsRemainder s.params.gfPoly m c)).finish :=
  (if_pos hr).trans ((complete_eq_next _ _).2 ⟨_, by rw [rsEncEffect, hl, Option.map_some], rfl⟩)

/-- Settles O17: in range, with the message written, the load gives the message and its remainder is stored. -/
theorem rsEncWritesRemainder : Obligations.RsEncWritesRemainder := by
  intro c s m h1 _ hsrc hdst hm hw
  have hrange : s.rsInRange c = true := by
    simp [State.rsInRange, hsrc, hdst]
    omega
  have hload : s.load .data s.rsSrc.toNat s.rsLen.toNat = some m :=
    (s.load_eq_some _ _ _ _).2 ⟨hm, fun k hk => hw k (by omega)⟩
  obtain ⟨t, ht, hframe, hread⟩ := writes_of_exec_store (0x2000 + s.rsDst.toNat) (exec_rsEnc hrange hload) rfl
  exact ⟨t, ht, hframe, fun a => by rw [hread, rsRemainder_length]⟩

/-! ## ECC_BLOCKS (R148, R150) -/

/-- Byte k of blocks of one length n is byte k mod n of block k div n. -/
theorem getElem?_flatMap_of_length {α β : Type} (f : α → List β) {n : Nat} (hf : ∀ a, (f a).length = n)
    (l : List α) (k : Nat) (hk : k < l.length * n) : (l.flatMap f)[k]? = l[k / n]?.bind fun a => (f a)[k % n]? := by
  have hn : 0 < n := Nat.pos_of_mul_pos_left (Nat.zero_lt_of_lt hk)
  induction l generalizing k with
  | nil => simp
  | cons a as ih =>
    rw [List.flatMap_cons]
    rcases Nat.lt_or_ge k n with h | h
    · rw [List.getElem?_append_left (by rw [hf]; exact h), Nat.div_eq_of_lt h, Nat.mod_eq_of_lt h]
      simp
    · rw [List.length_cons, Nat.succ_mul] at hk
      rw [List.getElem?_append_right (by rw [hf]; exact h), hf, ih (k - n) (by omega),
        Nat.div_eq_sub_div hn h, Nat.mod_eq_sub_mod h]
      rfl

/-- With the payload written the blocks read are those of the payload (R148). -/
theorem dataBlocks_of_holds {s : State} {v : Nat} {lv : Level} {d : Nat → Byte} (h1 : 1 ≤ v) (h2 : v ≤ 40)
    (h : s.Holds .data (dataCodewords v lv) d) :
    s.dataBlocks v lv = some ((List.range (blockCount v lv)).map (dataBlock d v lv)) := by
  rw [State.dataBlocks, gather_eq_some, List.map_map]
  refine List.map_congr_left fun b hb => (s.load_eq_some _ _ _ _).2 ⟨by simp [dataBlock], fun k hk => ?_⟩
  have hend := blockStart_add_blockLength_le v lv h1 h2 b (List.mem_range.1 hb)
  rw [Nat.add_assoc, h _ (by omega)]
  simp [dataBlock, hk]

/-- The bytes ECC_BLOCKS stores for the payload `d`: the correction codewords of every block (R150). -/
def payloadEccBytes (p : BitVec 9) (d : Nat → Byte) (v : Nat) (lv : Level) : List Byte :=
  (List.range (blockCount v lv)).flatMap fun b => rsRemainder p (dataBlock d v lv b) (eccPerBlock v lv)

theorem payloadEccBytes_length (p : BitVec 9) (d : Nat → Byte) (v : Nat) (lv : Level) :
    (payloadEccBytes p d v lv).length = blockCount v lv * eccPerBlock v lv := by
  simp [payloadEccBytes, List.length_flatMap, rsRemainder_length]

theorem payloadEccBytes_getElem? (p : BitVec 9) (d : Nat → Byte) (v : Nat) (lv : Level) {k : Nat}
    (hk : k < blockCount v lv * eccPerBlock v lv) :
    (payloadEccBytes p d v lv)[k]? =
      (rsRemainder p (dataBlock d v lv (k / eccPerBlock v lv)) (eccPerBlock v lv))[k % eccPerBlock v lv]? := by
  rw [payloadEccBytes, getElem?_flatMap_of_length _ (fun _ => rsRemainder_length _ _ _) _ _ (by simpa using hk),
    List.getElem?_range (Nat.div_lt_of_lt_mul (by rwa [Nat.mul_comm])), Option.bind_some]

theorem exec_eccBlocks {s : State} {v : Nat} {d : Nat → Byte} (hv : s.AtVersion v)
    (hd : s.Holds .data (dataCodewords v s.level) d) :
    exec .eccBlocks s = .next (s.store .ecc 0 (payloadEccBytes s.params.gfPoly d v s.level)).finish := by
  obtain ⟨hver, h1, h2⟩ := hv
  refine (withVersion_of_legal s v _ hver h1 h2).trans ((complete_eq_next _ _).2
    ⟨_, (eccBlocksEffect_eq_some _ _ _).2 ⟨_, dataBlocks_of_holds h1 h2 hd, ?_⟩, rfl⟩)
  rw [List.flatMap_map, payloadEccBytes]

/-- Settles O19: the blocks read are those of the payload, and their remainders stand one after the other. -/
theorem eccBlocksWritesRemainders : Obligations.EccBlocksWritesRemainders := by
  intro s v d hv hd
  obtain ⟨t, ht, hframe, hread⟩ := writes_of_exec_store 0x2000 (exec_eccBlocks hv hd) rfl
  refine ⟨t, ht, hframe, fun a => (hread a).trans ?_⟩
  rw [payloadEccBytes_length]
  split
  · next ha => exact payloadEccBytes_getElem? _ _ _ _ (by omega)
  · rfl

end Sys2Proof.Machine
end

section
/-! SUPPORT. The cells of the data area (R190): the zigzag visits each interior cell off column 6 once (R183), and what the function patterns leave of them is counted by R145's closed form. -/

namespace Sys2Proof.Machine

/-! ## The zigzag covers the interior off column 6 (R183) -/

/-- The list visits every cell of the first w columns of s rows but those of column 6 once, and no other cell. -/
structure CoversColumns (s w : Nat) (l : List (Nat × Nat)) : Prop where
  nodup : l.Nodup
  mem_iff : ∀ y x, (y, x) ∈ l ↔ y < s ∧ x < w ∧ x ≠ 6

theorem pairCells_nodup {right : Nat} (hr : 1 ≤ right) {rows : List Nat} (h : rows.Nodup) :
    (pairCells right rows).Nodup := by
  refine List.nodup_flatMap.2 ⟨fun y _ => by simp; omega, h.imp fun {a b} hab => ?_⟩
  simp [hab, List.disjoint_left]

/-- Two more columns before a list that covers the columns left of them. -/
theorem CoversColumns.pairCells_append {s w w' right : Nat} {l : List (Nat × Nat)} (h : CoversColumns s w l)
    (hlt : w + 1 ≤ right) (hw : ∀ x, x < w' ∧ x ≠ 6 ↔ (x = right ∨ x = right - 1) ∨ x < w ∧ x ≠ 6)
    {rows : List Nat} (hnd : rows.Nodup) (hrows : ∀ y, y ∈ rows ↔ y < s) : CoversColumns s w' (pairCells right rows ++ l) where
  nodup := by
    refine List.nodup_append'.2 ⟨pairCells_nodup (by omega) hnd, h.nodup, fun ⟨y, x⟩ h1 h2 => ?_⟩
    have := (mem_pairCells_iff right rows y x).1 h1
    have := (h.mem_iff y x).1 h2
    omega
  mem_iff y x := by
    rw [List.mem_append, mem_pairCells_iff, h.mem_iff, hrows, hw]
    tauto

/-- One column pair of the zigzag, left of which the rest of it covers the columns. -/
theorem zigzagFrom_succ_covers {s fuel w w' right : Nat} (r : Nat) (hr : (if right = 6 then 5 else right) = r)
    (h : CoversColumns s w (zigzagFrom s fuel (r - 2))) (hlt : w + 1 ≤ r)
    (hw : ∀ x, x < w' ∧ x ≠ 6 ↔ (x = r ∨ x = r - 1) ∨ x < w ∧ x ≠ 6) :
    CoversColumns s w' (zigzagFrom s (fuel + 1) right) := by
  have h0 : right ≠ 0 := by split at hr <;> omega
  rw [zigzagFrom, if_neg h0]
  simp only [hr]
  refine h.pairCells_append hlt hw ?_ ?_
  · split <;> simp [List.nodup_range]
  · split <;> simp

/-- Left of column 6 the column pairs begin at the odd columns. -/
theorem zigzagFrom_covers_left (s : Nat) {k fuel : Nat} (hk : k ≤ 3) (hf : k ≤ fuel) :
    CoversColumns s (2 * k) (zigzagFrom s fuel (2 * k - 1)) := by
  induction k generalizing fuel with
  | zero => cases fuel <;> exact ⟨by simp [zigzagFrom], by simp [zigzagFrom]⟩
  | succ k ih =>
    obtain ⟨fuel, rfl⟩ : ∃ f, fuel = f + 1 := ⟨fuel - 1, by omega⟩
    have hr : (if 2 * (k + 1) - 1 = 6 then 5 else 2 * (k + 1) - 1) = 2 * k + 1 := by rw [if_neg (by omega)]; omega
    exact zigzagFrom_succ_covers (2 * k + 1) hr (ih (by omega) (by omega)) (by omega) (by omega)

/-- Right of column 6 they begin at the even columns; at column 6 the next pair is (5, 4). -/
theorem zigzagFrom_covers_right (s : Nat) {k fuel : Nat} (hf : k + 3 ≤ fuel) :
    CoversColumns s (2 * k + 7) (zigzagFrom s fuel (2 * k + 6)) := by
  induction k generalizing fuel with
  | zero =>
    obtain ⟨fuel, rfl⟩ : ∃ f, fuel = f + 1 := ⟨fuel - 1, by omega⟩
    have hleft := zigzagFrom_covers_left s (k := 2) (fuel := fuel) (by decide) (by omega)
    exact zigzagFrom_succ_covers 5 rfl hleft (by decide) (by omega)
  | succ k ih =>
    obtain ⟨fuel, rfl⟩ : ∃ f, fuel = f + 1 := ⟨fuel - 1, by omega⟩
    exact zigzagFrom_succ_covers (2 * k + 8) (if_neg (by omega)) (ih (by omega)) (by omega) (by omega)

/-- Z(s) visits every interior cell off column 6 once (R183). -/
theorem zigzag_covers (v : Nat) : CoversColumns (side v) (side v) (zigzag (side v)) := by
  have h := zigzagFrom_covers_right (side v) (k := 2 * v + 5) (fuel := side v) (by unfold side; omega)
  rwa [show 2 * (2 * v + 5) + 7 = side v by unfold side; omega,
    show 2 * (2 * v + 5) + 6 = side v - 1 by unfold side; omega] at h

/-! ## Function patterns off the format places -/

theorem timingStep_congr {g g' : Grid} {y x : Nat} (h : g y x = g' y x) : timingStep g y x = timingStep g' y x := by
  rw [timingStep, timingStep, h]

theorem formatStep_of_not_format (s : Nat) (lv : Level) (m : MaskId) (g : Grid) {y x : Nat}
    (h : ¬ ∃ i, i < 15 ∧ ((y, x) = formatCell1 i ∨ (y, x) = formatCell2 s i)) :
    formatStep s lv m g y x = if y = s - 8 ∧ x = 8 then .dark else g y x := by
  rw [formatStep, Grid.set_apply, Grid.setAll_of_not_mem _ _ _ _ (mt (mem_formatCells_iff s lv m (y, x)).1 h)]

/-- Level and mask reach the function patterns through the format bits only (R187). -/
theorem functionGrid_eq_of_not_format (v : Nat) (lv lv' : Level) (m m' : MaskId) {y x : Nat}
    (h : ¬ ∃ i, i < 15 ∧ ((y, x) = formatCell1 i ∨ (y, x) = formatCell2 (side v) i)) :
    functionGrid v lv m y x = functionGrid v lv' m' y x :=
  timingStep_congr (by rw [formatStep_of_not_format _ _ _ _ h, formatStep_of_not_format _ _ _ _ h])

/-! ## Squares of index sets -/

/-- The cells with a row in P or Q and a column in P or Q, not both in Q. -/
def elbow (P Q : Finset Nat) : Finset (Nat × Nat) := P ×ˢ P ∪ P ×ˢ Q ∪ Q ×ˢ P

theorem mem_elbow_iff (P Q : Finset Nat) (y x : Nat) :
    (y, x) ∈ elbow P Q ↔ (y ∈ P ∧ x ∈ P) ∨ (y ∈ P ∧ x ∈ Q) ∨ (y ∈ Q ∧ x ∈ P) := by
  simp [elbow]

theorem elbow_subset {P Q R : Finset Nat} (hP : P ⊆ R) (hQ : Q ⊆ R) : elbow P Q ⊆ R ×ˢ R :=
  Finset.union_subset (Finset.union_subset (Finset.product_subset_product hP hP) (Finset.product_subset_product hP hQ))
    (Finset.product_subset_product hQ hP)

theorem card_elbow {P Q : Finset Nat} (h : Disjoint P Q) :
    (elbow P Q).card = P.card * P.card + 2 * (P.card * Q.card) := by
  have h1 : Disjoint (P ×ˢ P) (P ×ˢ Q) := Finset.disjoint_product.2 (.inr h)
  have h2 : Disjoint (P ×ˢ P ∪ P ×ˢ Q) (Q ×ˢ P) :=
    Finset.disjoint_union_left.2 ⟨Finset.disjoint_product.2 (.inl h), Finset.disjoint_product.2 (.inl h)⟩
  rw [elbow, Finset.card_union_of_disjoint h2, Finset.card_union_of_disjoint h1]
  simp only [Finset.card_product]
  ring

/-! ## The finder patterns with the format information -/

/-- Rows and columns of the interior off the timing patterns. -/
def interiorIndices (v : Nat) : Finset Nat := (Finset.range (side v)).erase 6

/-- The cells of the finder patterns, separators and format information off the timing patterns: nine rows by nine columns
in the corner at the origin, nine by eight in the other two. -/
def cornerArea (v : Nat) : Finset (Nat × Nat) :=
  elbow ((Finset.range 9).erase 6) (Finset.Ico (side v - 8) (side v))

theorem edges_of_mem_cornerArea {v y x : Nat} (h : (y, x) ∈ cornerArea v) :
    (y < 9 ∧ (x < 9 ∨ side v - 8 ≤ x)) ∨ (side v - 8 ≤ y ∧ x < 9) := by
  simp [cornerArea, mem_elbow_iff] at h
  omega

theorem mem_cornerArea_iff {v y x : Nat} (hy : y ≠ 6) (hx : x ≠ 6) (hys : y < side v) (hxs : x < side v) :
    (y, x) ∈ cornerArea v ↔ (y < 9 ∧ (x < 9 ∨ side v - 8 ≤ x)) ∨ (side v - 8 ≤ y ∧ x < 9) := by
  refine ⟨edges_of_mem_cornerArea, fun h => ?_⟩
  simp [cornerArea, mem_elbow_iff, hy, hx, hys, hxs]
  omega

theorem card_cornerArea {v : Nat} (h1 : 1 ≤ v) : (cornerArea v).card = 192 := by
  have hd : Disjoint ((Finset.range 9).erase 6) (Finset.Ico (side v - 8) (side v)) := by
    rw [Finset.disjoint_left]
    simp [side]
    omega
  have hc : ((Finset.range 9).erase 6).card = 8 := rfl
  rw [cornerArea, card_elbow hd, Nat.card_Ico, hc, show side v - (side v - 8) = 8 by unfold side; omega]

/-- The places of copy 1 of the format information: along row 8 and column 8 at the origin (R178). -/
theorem exists_eq_formatCell1_iff (y x : Nat) :
    (∃ i, i < 15 ∧ (y, x) = formatCell1 i) ↔ (x = 8 ∧ y < 9 ∧ y ≠ 6) ∨ (y = 8 ∧ x < 9 ∧ x ≠ 6) := by
  constructor
  · rintro ⟨i, hi, h⟩
    unfold formatCell1 at h
    split_ifs at h <;> simp only [Prod.mk.injEq] at h <;> omega
  · rintro (⟨rfl, hy, h6⟩ | ⟨rfl, hx, h6⟩)
    · rcases Nat.lt_or_gt_of_ne h6 with h | h
      · exact ⟨y, by omega, by rw [formatCell1, if_pos (by omega)]⟩
      · exact ⟨y - 1, by omega, by unfold formatCell1; split_ifs <;> simp <;> omega⟩
    · rcases Nat.lt_or_gt_of_ne h6 with h | h
      · exact ⟨14 - x, by omega, by unfold formatCell1; split_ifs <;> simp <;> omega⟩
      · exact ⟨15 - x, by omega, by unfold formatCell1; split_ifs <;> simp <;> omega⟩

/-- The places of copy 2: along row 8 at the right edge and column 8 at the lower edge (R178). -/
theorem exists_eq_formatCell2_iff {s : Nat} (hs : 15 ≤ s) (y x : Nat) :
    (∃ i, i < 15 ∧ (y, x) = formatCell2 s i) ↔
      (y = 8 ∧ s - 8 ≤ x ∧ x < s) ∨ (x = 8 ∧ s - 7 ≤ y ∧ y < s) := by
  constructor
  · rintro ⟨i, hi, h⟩
    unfold formatCell2 at h
    split_ifs at h <;> simp only [Prod.mk.injEq] at h <;> omega
  · rintro (⟨rfl, hx, hxs⟩ | ⟨rfl, hy, hys⟩)
    · exact ⟨s - 1 - x, by omega, by rw [formatCell2, if_pos (by omega)]; congr 1; omega⟩
    · exact ⟨y + 15 - s, by omega, by rw [formatCell2, if_neg (by omega)]; congr 1; omega⟩

/-- A cell is off the finder patterns and separators when it is in none of the three 8 × 8 corners (R173). -/
theorem off_finders_iff {s y x : Nat} (hs : 21 ≤ s) (hys : y < s) (hxs : x < s) :
    (∀ c ∈ [(3, 3), (3, s - 4), (s - 4, 3)], 4 < max (gap y c.1) (gap x c.2)) ↔
      (8 ≤ y ∨ 8 ≤ x) ∧ (8 ≤ y ∨ x < s - 8) ∧ (y < s - 8 ∨ 8 ≤ x) := by
  simp only [List.forall_mem_cons, List.not_mem_nil, false_implies, implies_true, and_true, gap]
  refine and_congr ?_ (and_congr ?_ ?_) <;> omega

/-- The corner areas hold the finder patterns, the format information and the dark module, and nothing else. -/
theorem not_mem_cornerArea_iff {v y x : Nat} (h1 : 1 ≤ v) (hy : y ≠ 6) (hx : x ≠ 6) (hys : y < side v)
    (hxs : x < side v) : (y, x) ∉ cornerArea v ↔ ¬ (y = side v - 8 ∧ x = 8) ∧
      (¬ ∃ i, i < 15 ∧ ((y, x) = formatCell1 i ∨ (y, x) = formatCell2 (side v) i)) ∧
      ∀ c ∈ [(3, 3), (3, side v - 4), (side v - 4, 3)], 4 < max (gap y c.1) (gap x c.2) := by
  have hs : 21 ≤ side v := by unfold side; omega
  simp only [mem_cornerArea_iff hy hx hys hxs, and_or_left, exists_or, exists_eq_formatCell1_iff,
    exists_eq_formatCell2_iff (Nat.le_trans (by decide) hs), off_finders_iff hs hys hxs]
  omega

/-! ## The version information -/

/-- The cells of both copies of the version information (R174), from version 7 up. -/
def versionArea (v : Nat) : Finset (Nat × Nat) :=
  if 7 ≤ v then
    Finset.range 6 ×ˢ Finset.Ico (side v - 11) (side v - 8) ∪ Finset.Ico (side v - 11) (side v - 8) ×ˢ Finset.range 6
  else ∅

theorem mem_versionArea_iff (v y x : Nat) : (y, x) ∈ versionArea v ↔ 7 ≤ v ∧
    ((y < 6 ∧ side v - 11 ≤ x ∧ x < side v - 8) ∨ ((side v - 11 ≤ y ∧ y < side v - 8) ∧ x < 6)) := by
  rw [versionArea]
  split <;> simp [*]

theorem card_versionArea (v : Nat) : (versionArea v).card = if 7 ≤ v then 36 else 0 := by
  rw [versionArea]
  split
  · have hd : Disjoint (Finset.range 6) (Finset.Ico (side v - 11) (side v - 8)) := by
      rw [Finset.disjoint_left]
      simp [side]
      omega
    rw [Finset.card_union_of_disjoint (Finset.disjoint_product.2 (.inl hd)), Finset.card_product, Finset.card_product,
      Nat.card_Ico, Finset.card_range, show side v - 8 - (side v - 11) = 3 by unfold side; omega]
  · rfl

/-- Each copy fills a block of six by three cells (R174). -/
theorem not_mem_versionArea_iff (v y x : Nat) :
    (y, x) ∉ versionArea v ↔ (7 ≤ v → ¬ ∃ i, i < 18 ∧
      ((y, x) = (i / 3, side v - 11 + i % 3) ∨ (y, x) = (side v - 11 + i % 3, i / 3))) := by
  rw [mem_versionArea_iff, not_and]
  refine imp_congr_right fun hv => not_congr ?_
  simp only [Prod.mk.injEq]
  constructor
  · rintro (⟨hy, hx, hx'⟩ | ⟨⟨hy, hy'⟩, hx⟩)
    · exact ⟨3 * y + (x - (side v - 11)), by omega, .inl (by omega)⟩
    · exact ⟨3 * x + (y - (side v - 11)), by omega, .inr (by omega)⟩
  · rintro ⟨i, hi, ⟨rfl, rfl⟩ | ⟨rfl, rfl⟩⟩
    · left; unfold side; omega
    · right; unfold side; omega

/-! ## The alignment patterns -/

/-- Coordinate i of AL(v) (R177). -/
def alignmentCoord (v i : Nat) : Nat := (alignmentCoords v).getD i 0

theorem alignmentCoords_length {v : Nat} (h2 : 2 ≤ v) : (alignmentCoords v).length = v / 7 + 2 := by
  rw [alignmentCoords, if_neg (by omega)]
  simp

theorem alignmentCoord_zero {v : Nat} (h2 : 2 ≤ v) : alignmentCoord v 0 = 6 := by
  rw [alignmentCoord, alignmentCoords, if_neg (by omega)]
  rfl

theorem alignmentCoord_last {v : Nat} (h2 : 2 ≤ v) :
    alignmentCoord v ((alignmentCoords v).length - 1) = side v - 7 := by
  rw [alignmentCoords_length h2, alignmentCoord, alignmentCoords, if_neg (by omega)]
  simp

/-- The coordinates between the first and the last keep off the format and version information. -/
theorem alignmentCoord_between : ∀ v, v ≤ 40 → ∀ i, i < (alignmentCoords v).length - 1 → 0 < i →
    11 ≤ alignmentCoord v i ∧ alignmentCoord v i + 14 ≤ side v := by
  decide +kernel

/-- The first coordinate of R177 is 6, the last s − 7, and those between are well inside. -/
theorem alignmentCoord_placed {v : Nat} (h2 : v ≤ 40) (h1 : 1 ≤ v) {i : Nat} (hi : i < (alignmentCoords v).length) :
    (i = 0 ∧ alignmentCoord v i = 6) ∨
    (0 < i ∧ i = (alignmentCoords v).length - 1 ∧ alignmentCoord v i + 7 = side v) ∨
    ((0 < i ∧ i < (alignmentCoords v).length - 1) ∧ 11 ≤ alignmentCoord v i ∧ alignmentCoord v i + 14 ≤ side v) := by
  have hv : 2 ≤ v := by
    rcases Nat.eq_or_lt_of_le h1 with rfl | h
    · simp [alignmentCoords] at hi
    · exact h
  rcases Nat.eq_zero_or_pos i with rfl | h0
  · exact .inl ⟨rfl, alignmentCoord_zero hv⟩
  · rcases Nat.eq_or_lt_of_le (Nat.le_sub_one_of_lt hi) with rfl | hl
    · refine .inr (.inl ⟨h0, rfl, ?_⟩)
      rw [alignmentCoord_last hv]
      unfold side
      omega
    · exact .inr (.inr ⟨⟨h0, hl⟩, alignmentCoord_between v h2 i hl h0⟩)

/-- The squares around two coordinates do not meet. -/
theorem alignmentCoord_spaced : ∀ v, v ≤ 40 → 1 ≤ v → ∀ i, i < (alignmentCoords v).length → ∀ j, j < i →
    alignmentCoord v j + 5 ≤ alignmentCoord v i := by
  decide +kernel

theorem mem_alignmentCentres_iff (v : Nat) (c : Nat × Nat) :
    c ∈ alignmentCentres v ↔ ∃ i j, i < (alignmentCoords v).length ∧ j < (alignmentCoords v).length ∧
      ¬ ((i = 0 ∧ j = 0) ∨ (i = 0 ∧ j = (alignmentCoords v).length - 1) ∨
        (i = (alignmentCoords v).length - 1 ∧ j = 0)) ∧
      (alignmentCoord v i, alignmentCoord v j) = c := by
  simp only [alignmentCentres, List.mem_filterMap, List.mem_flatMap, List.mem_map, List.mem_range,
    Option.ite_none_left_eq_some, Option.some.injEq, alignmentCoord]
  constructor
  · rintro ⟨_, ⟨i, hi, j, hj, rfl⟩, hc⟩
    exact ⟨i, j, hi, hj, hc⟩
  · rintro ⟨i, j, hi, hj, hc⟩
    exact ⟨(i, j), ⟨i, hi, j, hj, rfl⟩, hc⟩

/-- The rows and columns within 2 of an alignment coordinate, off the timing patterns. -/
def alignmentBand (v : Nat) : Finset Nat :=
  ((Finset.range (alignmentCoords v).length).biUnion fun i =>
    Finset.Icc (alignmentCoord v i - 2) (alignmentCoord v i + 2)).erase 6

theorem mem_alignmentBand_iff (v z : Nat) : z ∈ alignmentBand v ↔
    z ≠ 6 ∧ ∃ i, i < (alignmentCoords v).length ∧ alignmentCoord v i - 2 ≤ z ∧ z ≤ alignmentCoord v i + 2 := by
  simp [alignmentBand]

/-- The part of the band around the first coordinate, 6. -/
def firstBand : Finset Nat := (Finset.Icc 4 8).erase 6

/-- The part of the band around the last coordinate, s − 7. -/
def lastBand (v : Nat) : Finset Nat := Finset.Icc (side v - 9) (side v - 5)

theorem mem_firstBand_iff (z : Nat) : z ∈ firstBand ↔ z ≠ 6 ∧ 4 ≤ z ∧ z ≤ 8 := by simp [firstBand]

theorem mem_lastBand_iff (v z : Nat) : z ∈ lastBand v ↔ side v - 9 ≤ z ∧ z ≤ side v - 5 := by simp [lastBand]

/-- The band is its first part, its last part, and the rest away from the edges. -/
theorem alignmentBand_cases {v z : Nat} (h1 : 1 ≤ v) (h2 : v ≤ 40) (hz : z ∈ alignmentBand v) :
    z ∈ firstBand ∨ z ∈ lastBand v ∨ (9 ≤ z ∧ z + 12 ≤ side v) := by
  rw [mem_firstBand_iff, mem_lastBand_iff]
  obtain ⟨h6, i, hi, hlo, hhi⟩ := (mem_alignmentBand_iff v z).1 hz
  have := alignmentCoord_placed h2 h1 hi
  omega

theorem firstBand_subset_alignmentBand {v : Nat} (h1 : 2 ≤ v) (h2 : v ≤ 40) : firstBand ⊆ alignmentBand v := by
  intro z hz
  rw [mem_firstBand_iff] at hz
  have hn := alignmentCoords_length h1
  have := alignmentCoord_placed (i := 0) h2 (by omega) (by omega)
  exact (mem_alignmentBand_iff v z).2 ⟨hz.1, 0, by omega, by omega, by omega⟩

theorem lastBand_subset_alignmentBand {v : Nat} (h1 : 2 ≤ v) (h2 : v ≤ 40) : lastBand v ⊆ alignmentBand v := by
  intro z hz
  rw [mem_lastBand_iff] at hz
  have hs : 25 ≤ side v := by unfold side; omega
  have hn := alignmentCoords_length h1
  have := alignmentCoord_placed (i := (alignmentCoords v).length - 1) h2 (by omega) (by omega)
  exact (mem_alignmentBand_iff v z).2 ⟨by omega, (alignmentCoords v).length - 1, by omega, by omega, by omega⟩

theorem card_alignmentBand {v : Nat} (h1 : 2 ≤ v) (h2 : v ≤ 40) :
    (alignmentBand v).card = 5 * (alignmentCoords v).length - 1 := by
  have hn := alignmentCoords_length h1
  have h6 : 6 ∈ (Finset.range (alignmentCoords v).length).biUnion fun i =>
      Finset.Icc (alignmentCoord v i - 2) (alignmentCoord v i + 2) := by
    have := alignmentCoord_placed (i := 0) h2 (by omega) (by omega)
    exact Finset.mem_biUnion.2 ⟨0, by simp; omega, by simp; omega⟩
  rw [alignmentBand, Finset.card_erase_of_mem h6, Finset.card_biUnion]
  · rw [Finset.sum_congr rfl fun i hi => ?_, Finset.sum_const, Finset.card_range, smul_eq_mul, Nat.mul_comm]
    have := alignmentCoord_placed h2 (by omega) (Finset.mem_range.1 hi)
    have hs : 25 ≤ side v := by unfold side; omega
    rw [Nat.card_Icc]
    omega
  · intro i hi j hj hij
    rw [Finset.mem_coe, Finset.mem_range] at hi hj
    rw [Function.onFun, Finset.disjoint_left]
    intro z hzi hzj
    rw [Finset.mem_Icc] at hzi hzj
    rcases Nat.lt_or_gt_of_ne hij with h | h
    · have := alignmentCoord_spaced v h2 (by omega) j hj i h
      omega
    · have := alignmentCoord_spaced v h2 (by omega) i hi j h
      omega

/-- The cells of the alignment patterns off the timing patterns: all squares but the three of the corner pairs (R176). -/
def alignmentArea (v : Nat) : Finset (Nat × Nat) := alignmentBand v ×ˢ alignmentBand v \ elbow firstBand (lastBand v)

theorem mem_alignmentArea_iff (v y x : Nat) : (y, x) ∈ alignmentArea v ↔
    (y ∈ alignmentBand v ∧ x ∈ alignmentBand v) ∧ (y, x) ∉ elbow firstBand (lastBand v) := by
  simp [alignmentArea]

theorem card_alignmentArea {v : Nat} (h1 : 2 ≤ v) (h2 : v ≤ 40) :
    (alignmentArea v).card = (5 * (alignmentCoords v).length - 1) * (5 * (alignmentCoords v).length - 1) - 56 := by
  have hs : 25 ≤ side v := by unfold side; omega
  have hf := firstBand_subset_alignmentBand h1 h2
  have hl := lastBand_subset_alignmentBand h1 h2
  have hd : Disjoint firstBand (lastBand v) := by
    rw [Finset.disjoint_left]
    intro z
    rw [mem_firstBand_iff, mem_lastBand_iff]
    omega
  have hcf : firstBand.card = 4 := rfl
  rw [alignmentArea, Finset.card_sdiff_of_subset (elbow_subset hf hl), card_elbow hd, Finset.card_product,
    card_alignmentBand h1 h2, hcf, lastBand, Nat.card_Icc, show side v - 5 + 1 - (side v - 9) = 5 by omega]

/-- Off the timing patterns the alignment area is what the squares around the alignment centres reach. -/
theorem not_mem_alignmentArea_iff {v y x : Nat} (h1 : 1 ≤ v) (h2 : v ≤ 40) (hy : y ≠ 6) (hx : x ≠ 6) :
    (y, x) ∉ alignmentArea v ↔ ∀ c ∈ alignmentCentres v, 2 < max (gap y c.1) (gap x c.2) := by
  have hs : 21 ≤ side v := by unfold side; omega
  simp only [mem_alignmentArea_iff, mem_elbow_iff, mem_firstBand_iff, mem_lastBand_iff, mem_alignmentBand_iff, gap]
  constructor
  · intro h c hc
    obtain ⟨i, j, hi, hj, hij, rfl⟩ := (mem_alignmentCentres_iff v c).1 hc
    have hpi := alignmentCoord_placed h2 h1 hi
    have hpj := alignmentCoord_placed h2 h1 hj
    by_contra hnear
    exact h ⟨⟨⟨hy, i, hi, by omega, by omega⟩, hx, j, hj, by omega, by omega⟩, by omega⟩
  · rintro h ⟨⟨⟨-, i, hi, hyi⟩, -, j, hj, hxj⟩, hnot⟩
    have hpi := alignmentCoord_placed h2 h1 hi
    have hpj := alignmentCoord_placed h2 h1 hj
    have := h _ ((mem_alignmentCentres_iff v _).2 ⟨i, j, hi, hj, by omega, rfl⟩)
    simp only at this
    omega

/-! ## The size of the data area (R145) -/

/-- The data area: the interior off the timing patterns, less the three areas (R190). -/
def dataArea (v : Nat) : Finset (Nat × Nat) :=
  interiorIndices v ×ˢ interiorIndices v \ (cornerArea v ∪ versionArea v ∪ alignmentArea v)

theorem mem_interiorIndices_iff (v z : Nat) : z ∈ interiorIndices v ↔ z ≠ 6 ∧ z < side v := by simp [interiorIndices]

/-- The interior cells that steps 0 to 5 leave Unset are those of the data area. -/
theorem mem_dataArea_iff {v y x : Nat} (h1 : 1 ≤ v) (h2 : v ≤ 40) (lv : Level) (m : MaskId) (hys : y < side v)
    (hxs : x < side v) : (y, x) ∈ dataArea v ↔ functionGrid v lv m y x = .unset := by
  simp only [dataArea, Finset.mem_sdiff, Finset.mem_product, Finset.mem_union, mem_interiorIndices_iff, not_or, hys,
    hxs, and_true]
  rw [functionGrid_eq_unset_iff]
  by_cases hy : y = 6
  · simp [hy]
  by_cases hx : x = 6
  · simp [hx]
  rw [not_mem_cornerArea_iff h1 hy hx hys hxs, not_mem_versionArea_iff, not_mem_alignmentArea_iff h1 h2 hy hx]
  tauto

theorem dataCells_toFinset {v : Nat} (h1 : 1 ≤ v) (h2 : v ≤ 40) (lv : Level) (m : MaskId) :
    (dataCells v lv m).toFinset = dataArea v := by
  ext ⟨y, x⟩
  rw [List.mem_toFinset, mem_dataCells_iff, (zigzag_covers v).mem_iff]
  constructor
  · rintro ⟨⟨hy, hx, -⟩, hu⟩
    exact (mem_dataArea_iff h1 h2 lv m hy hx).2 hu
  · intro h
    have hyx := h
    simp only [dataArea, Finset.mem_sdiff, Finset.mem_product, mem_interiorIndices_iff] at hyx
    obtain ⟨⟨⟨-, hy⟩, h6, hx⟩, -⟩ := hyx
    exact ⟨⟨hy, hx, h6⟩, (mem_dataArea_iff h1 h2 lv m hy hx).1 h⟩

theorem cornerArea_subset {v : Nat} (h1 : 1 ≤ v) : cornerArea v ⊆ interiorIndices v ×ˢ interiorIndices v := by
  refine elbow_subset (fun z hz => ?_) fun z hz => ?_
  · rw [Finset.mem_erase, Finset.mem_range] at hz
    rw [mem_interiorIndices_iff, side]
    omega
  · rw [Finset.mem_Ico, side] at hz
    rw [mem_interiorIndices_iff, side]
    omega

theorem versionArea_subset (v : Nat) : versionArea v ⊆ interiorIndices v ×ˢ interiorIndices v := by
  intro ⟨y, x⟩ h
  rw [mem_versionArea_iff, side] at h
  rw [Finset.mem_product, mem_interiorIndices_iff, mem_interiorIndices_iff, side]
  omega

theorem alignmentArea_subset {v : Nat} (h1 : 1 ≤ v) (h2 : v ≤ 40) :
    alignmentArea v ⊆ interiorIndices v ×ˢ interiorIndices v := by
  have hband : alignmentBand v ⊆ interiorIndices v := fun z hz => by
    have hs : 21 ≤ side v := by unfold side; omega
    have h6 := ((mem_alignmentBand_iff v z).1 hz).1
    have := alignmentBand_cases h1 h2 hz
    rw [mem_firstBand_iff, mem_lastBand_iff] at this
    rw [mem_interiorIndices_iff]
    omega
  exact Finset.sdiff_subset.trans (Finset.product_subset_product hband hband)

theorem disjoint_cornerArea_versionArea (v : Nat) : Disjoint (cornerArea v) (versionArea v) := by
  refine Finset.disjoint_left.2 fun ⟨y, x⟩ hc hv => ?_
  have hedge := edges_of_mem_cornerArea hc
  rw [mem_versionArea_iff] at hv
  unfold side at hedge hv
  omega

/-- An alignment pattern off the timing patterns has a row or a column away from the edges, or is the last one of all. -/
theorem alignmentArea_cases {v y x : Nat} (h1 : 1 ≤ v) (h2 : v ≤ 40) (h : (y, x) ∈ alignmentArea v) :
    (9 ≤ y ∧ y + 12 ≤ side v) ∨ (9 ≤ x ∧ x + 12 ≤ side v) ∨ (y ∈ lastBand v ∧ x ∈ lastBand v) := by
  obtain ⟨⟨hy, hx⟩, hnot⟩ := (mem_alignmentArea_iff v y x).1 h
  rw [mem_elbow_iff] at hnot
  rcases alignmentBand_cases h1 h2 hy with hyf | hyl | hym
  · rcases alignmentBand_cases h1 h2 hx with hxf | hxl | hxm
    · exact absurd (.inl ⟨hyf, hxf⟩) hnot
    · exact absurd (.inr (.inl ⟨hyf, hxl⟩)) hnot
    · exact .inr (.inl hxm)
  · rcases alignmentBand_cases h1 h2 hx with hxf | hxl | hxm
    · exact absurd (.inr (.inr ⟨hyl, hxf⟩)) hnot
    · exact .inr (.inr ⟨hyl, hxl⟩)
    · exact .inr (.inl hxm)
  · exact .inl hym

theorem disjoint_areas_alignmentArea {v : Nat} (h1 : 1 ≤ v) (h2 : v ≤ 40) :
    Disjoint (cornerArea v ∪ versionArea v) (alignmentArea v) := by
  refine Finset.disjoint_left.2 fun ⟨y, x⟩ hcv ha => ?_
  have hs : 21 ≤ side v := by unfold side; omega
  have hcases := alignmentArea_cases h1 h2 ha
  rw [mem_lastBand_iff, mem_lastBand_iff] at hcases
  rcases Finset.mem_union.1 hcv with hc | hv
  · have hedge := edges_of_mem_cornerArea hc
    omega
  · rw [mem_versionArea_iff] at hv
    omega

/-- What is left of (s − 1)² cells is R145's closed form. -/
theorem card_dataArea {v : Nat} (h1 : 1 ≤ v) (h2 : v ≤ 40) : (dataArea v).card = dataModules v := by
  have hi : (interiorIndices v).card = 4 * v + 16 := by
    rw [interiorIndices, Finset.card_erase_of_mem (by simp [side]), Finset.card_range]
    rfl
  have hsub := Finset.union_subset (Finset.union_subset (cornerArea_subset h1) (versionArea_subset v))
    (alignmentArea_subset h1 h2)
  rw [dataArea, Finset.card_sdiff_of_subset hsub, Finset.card_union_of_disjoint (disjoint_areas_alignmentArea h1 h2),
    Finset.card_union_of_disjoint (disjoint_cornerArea_versionArea v), Finset.card_product, hi, card_cornerArea h1,
    card_versionArea, dataModules]
  have hsquare : (4 * v + 16) * (4 * v + 16) = (16 * v + 128) * v + 256 := by ring
  rcases Nat.eq_or_lt_of_le h1 with rfl | hv
  · rfl
  · have hquad : (5 * (v / 7 + 2) - 1) * (5 * (v / 7 + 2) - 1) = (25 * (v / 7 + 2) - 10) * (v / 7 + 2) + 1 := by
      rw [show 5 * (v / 7 + 2) - 1 = 5 * (v / 7) + 9 by omega,
        show 25 * (v / 7 + 2) - 10 = 25 * (v / 7) + 40 by omega]
      ring
    rw [card_alignmentArea hv h2, alignmentCoords_length hv, hsquare, hquad, if_pos (show 2 ≤ v from hv)]
    omega

/-- Settles O28: level and mask reach the format bits only, and the areas of the function patterns are counted. -/
theorem maskChangesOnlyFormatInformation : Obligations.MaskChangesOnlyFormatInformation := by
  refine ⟨fun v lv lv' m m' y x h1 h2 hy hx => ⟨?_, fun hne => ?_⟩, fun v lv m h1 h2 => ?_⟩
  · rw [functionGrid_eq_unset_iff, functionGrid_eq_unset_iff]
  · by_contra h
    exact hne (functionGrid_eq_of_not_format v lv lv' m m' h)
  · have hnd : (dataCells v lv m).Nodup := (zigzag_covers v).nodup.filter _
    have hlen : (dataCells v lv m).length = dataModules v := by
      rw [← List.toFinset_card_of_nodup hnd, dataCells_toFinset h1 h2, card_dataArea h1 h2]
    refine ⟨hlen, ?_, ?_⟩ <;> unfold remainderModules totalCodewords <;> omega

end Sys2Proof.Machine
end

section
/-! SUPPORT. The codeword interleaver (R160): where each byte of each block lands in the sequence, and so in CW (R161). -/

namespace Sys2Proof.Machine

/-! ## Rows of an interleaving (R160) -/

/-- nb blocks: block b the bytes f b 0, f b 1, … of length len b. -/
def blocksOf (nb : Nat) (len : Nat → Nat) (f : Nat → Nat → Byte) : List (List Byte) :=
  (List.range nb).map fun b => (List.range (len b)).map (f b)

/-- Row i of an interleaving is byte i of the blocks longer than i, in order. -/
theorem filterMap_getElem?_blocksOf (nb : Nat) (len : Nat → Nat) (f : Nat → Nat → Byte) (i : Nat) :
    ((blocksOf nb len f).filterMap fun blk => blk[i]?) = ((List.range nb).filter (i < len ·)).map (f · i) := by
  rw [blocksOf, List.filterMap_map, ← List.filterMap_eq_map, List.filterMap_filter]
  refine List.filterMap_congr fun b _ => ?_
  by_cases h : i < len b <;> simp [h]

/-- Up to the shortest length every block has a byte in every row. -/
theorem interleaved_blocksOf {n nb : Nat} {len : Nat → Nat} (hlen : ∀ b < nb, n ≤ len b) (f : Nat → Nat → Byte) :
    interleaved n (blocksOf nb len f) = (List.range n).flatMap fun i => (List.range nb).map (f · i) := by
  refine List.flatMap_congr fun i hi => ?_
  rw [filterMap_getElem?_blocksOf, List.filter_eq_self.2 fun b hb => ?_]
  exact decide_eq_true (Nat.lt_of_lt_of_le (List.mem_range.1 hi) (hlen b (List.mem_range.1 hb)))

theorem interleaved_blocksOf_length {n nb : Nat} {len : Nat → Nat} (hlen : ∀ b < nb, n ≤ len b)
    (f : Nat → Nat → Byte) : (interleaved n (blocksOf nb len f)).length = n * nb := by
  simp [interleaved_blocksOf hlen, List.length_flatMap]

theorem mul_add_lt_mul {n nb b i : Nat} (hb : b < nb) (hi : i < n) : i * nb + b < n * nb :=
  calc i * nb + b < (i + 1) * nb := by rw [Nat.succ_mul]; omega
    _ ≤ n * nb := Nat.mul_le_mul_right nb hi

/-- Complete rows place byte i of block b at i·NB + b (R160). -/
theorem interleaved_blocksOf_getElem? {n nb b i : Nat} {len : Nat → Nat} (hlen : ∀ b < nb, n ≤ len b)
    (f : Nat → Nat → Byte) (hb : b < nb) (hi : i < n) :
    (interleaved n (blocksOf nb len f))[i * nb + b]? = some (f b i) := by
  have hk : i * nb + b < (List.range n).length * nb := by simpa using mul_add_lt_mul hb hi
  rw [interleaved_blocksOf hlen, getElem?_flatMap_of_length _ (n := nb) (by simp) _ _ hk,
    Nat.add_comm, Nat.add_mul_div_right _ _ (by omega), Nat.add_mul_mod_self_right, Nat.div_eq_of_lt hb,
    Nat.mod_eq_of_lt hb]
  simp [hi, hb]

theorem interleaved_succ (n : Nat) (blocks : List (List Byte)) :
    interleaved (n + 1) blocks = interleaved n blocks ++ blocks.filterMap fun blk => blk[n]? := by
  simp [interleaved, List.range_succ]

theorem filter_le_range {ns nb : Nat} (h : ns ≤ nb) :
    (List.range nb).filter (ns ≤ ·) = (List.range (nb - ns)).map (ns + ·) := by
  obtain ⟨k, rfl⟩ := Nat.exists_eq_add_of_le h
  rw [List.range_add, List.filter_append, List.filter_eq_nil_iff.2 (by simp), List.filter_eq_self.2 (by simp)]
  simp

/-! ## The interleaved sequence of a symbol (R148, R160) -/

/-- The data blocks of the payload `d` (R148). -/
def dataBlocksOf (d : Nat → Byte) (v : Nat) (lv : Level) : List (List Byte) :=
  blocksOf (blockCount v lv) (blockLength v lv) fun b i => d (blockStart v lv b + i)

/-- The correction blocks of the correction codewords `e` (R160). -/
def eccBlocksOf (e : Nat → Byte) (v : Nat) (lv : Level) : List (List Byte) :=
  blocksOf (blockCount v lv) (fun _ => eccPerBlock v lv) fun b i => e (b * eccPerBlock v lv + i)

/-- With the payload written the data blocks read are its own (R148). -/
theorem dataBlocks_eq_dataBlocksOf {s : State} {v : Nat} {lv : Level} {d : Nat → Byte} (h1 : 1 ≤ v) (h2 : v ≤ 40)
    (h : s.Holds .data (dataCodewords v lv) d) : s.dataBlocks v lv = some (dataBlocksOf d v lv) :=
  dataBlocks_of_holds h1 h2 h

/-- With the correction codewords written the correction blocks read are theirs (R160). -/
theorem eccBlocks_eq_eccBlocksOf {s : State} {v : Nat} {lv : Level} {e : Nat → Byte}
    (h : s.Holds .ecc (blockCount v lv * eccPerBlock v lv) e) : s.eccBlocks v lv = some (eccBlocksOf e v lv) := by
  rw [State.eccBlocks, gather_eq_some, eccBlocksOf, blocksOf, List.map_map]
  refine List.map_congr_left fun b hb => (s.load_eq_some _ _ _ _).2 ⟨by simp, fun k hk => ?_⟩
  rw [Nat.add_assoc, h _ (mul_add_lt_mul hk (List.mem_range.1 hb))]
  simp [hk]

theorem shortLength_le_blockLength (v : Nat) (lv : Level) (b : Nat) : shortLength v lv ≤ blockLength v lv b := by
  simp [blockLength]

/-- The data codewords in order: the complete rows, then the last bytes of the long blocks (R160). -/
theorem interleaved_dataBlocksOf (d : Nat → Byte) (v : Nat) (lv : Level) (h : shortBlocks v lv ≤ blockCount v lv) :
    interleaved (shortLength v lv + 1) (dataBlocksOf d v lv) =
      interleaved (shortLength v lv) (dataBlocksOf d v lv) ++
        (List.range (blockCount v lv - shortBlocks v lv)).map fun j =>
          d (blockStart v lv (shortBlocks v lv + j) + shortLength v lv) := by
  have hlong : ∀ b, shortLength v lv < blockLength v lv b ↔ shortBlocks v lv ≤ b := fun b => by
    rw [blockLength]; split <;> omega
  simp only [interleaved_succ, dataBlocksOf, filterMap_getElem?_blocksOf, hlong, filter_le_range h, List.map_map]
  rfl

theorem interleaved_dataBlocksOf_length (d : Nat → Byte) {v : Nat} {lv : Level} (h1 : 1 ≤ v) (h2 : v ≤ 40) :
    (interleaved (shortLength v lv + 1) (dataBlocksOf d v lv)).length = dataCodewords v lv := by
  obtain ⟨-, -, -, -, -, hD, -, hns, -⟩ := capacity_bounds v h1 h2 lv
  rw [interleaved_dataBlocksOf d v lv hns, List.length_append, dataBlocksOf,
    interleaved_blocksOf_length fun b _ => shortLength_le_blockLength v lv b, Nat.mul_comm, ← hD]
  simp

/-- Byte i < KS of data block b stands at i·NB + b (R160). -/
theorem interleaveBlocks_data (d : Nat → Byte) {v b i : Nat} {lv : Level} (hb : b < blockCount v lv)
    (hi : i < shortLength v lv) (e : List (List Byte)) :
    (interleaveBlocks v lv (dataBlocksOf d v lv) e)[i * blockCount v lv + b]? =
      some (d (blockStart v lv b + i)) := by
  have hrow := interleaved_blocksOf_getElem? (fun b _ => shortLength_le_blockLength v lv b)
    (fun b i => d (blockStart v lv b + i)) hb hi
  obtain ⟨hlt, -⟩ := List.getElem?_eq_some_iff.1 hrow
  rw [interleaveBlocks, interleaved_succ, List.append_assoc, dataBlocksOf, List.getElem?_append_left hlt, hrow]

/-- The last byte of the long data block b ≥ NS stands at KS·NB + (b − NS) (R160). -/
theorem interleaveBlocks_long (d : Nat → Byte) {v b : Nat} {lv : Level} (hl : shortBlocks v lv ≤ b)
    (hb : b < blockCount v lv) (e : List (List Byte)) :
    (interleaveBlocks v lv (dataBlocksOf d v lv) e)[shortLength v lv * blockCount v lv + (b - shortBlocks v lv)]? =
      some (d (blockStart v lv b + shortLength v lv)) := by
  have hlen := interleaved_blocksOf_length (fun b _ => shortLength_le_blockLength v lv b)
    (nb := blockCount v lv) (fun b i => d (blockStart v lv b + i))
  rw [interleaveBlocks, interleaved_dataBlocksOf d v lv (hl.trans hb.le), List.append_assoc, dataBlocksOf, ← hlen,
    List.getElem?_append_right (Nat.le_add_right _ _), Nat.add_sub_cancel_left,
    List.getElem?_append_left (by simp; omega), List.getElem?_map, List.getElem?_range (by omega)]
  simp [Nat.add_sub_cancel' hl]

/-- Byte i of correction block b stands at D + i·NB + b (R160). -/
theorem interleaveBlocks_ecc (d e : Nat → Byte) {v b i : Nat} {lv : Level} (h1 : 1 ≤ v) (h2 : v ≤ 40)
    (hb : b < blockCount v lv) (hi : i < eccPerBlock v lv) :
    (interleaveBlocks v lv (dataBlocksOf d v lv) (eccBlocksOf e v lv))[
        dataCodewords v lv + (i * blockCount v lv + b)]? = some (e (b * eccPerBlock v lv + i)) := by
  rw [interleaveBlocks, ← interleaved_dataBlocksOf_length d h1 h2, List.getElem?_append_right (Nat.le_add_right _ _),
    Nat.add_sub_cancel_left, eccBlocksOf]
  exact interleaved_blocksOf_getElem? (fun _ _ => le_rfl) _ hb hi

/-! ## INTERLEAVE (R161) -/

theorem exec_interleave {s : State} {v : Nat} {d e : List (List Byte)} (hv : s.AtVersion v)
    (hd : s.dataBlocks v s.level = some d) (he : s.eccBlocks v s.level = some e) :
    exec .interleave s = .next (s.store .cw 0 (interleaveBlocks v s.level d e)).finish := by
  obtain ⟨hver, h1, h2⟩ := hv
  exact (withVersion_of_legal s v _ hver h1 h2).trans ((complete_eq_next _ _).2
    ⟨_, (interleaveEffect_eq_some _ _ _).2 ⟨d, e, hd, he, rfl⟩, rfl⟩)

/-- Settles O20: the sequence stored at CW[0] has the bytes of the blocks at the positions of R160's closed form. -/
theorem interleavePlacesCodewords : Obligations.InterleavePlacesCodewords := by
  intro s v d e hv hd he nb ks
  have ⟨_, h1, h2⟩ := hv
  have hdb := dataBlocks_eq_dataBlocksOf h1 h2 hd
  have heb := eccBlocks_eq_eccBlocksOf he
  obtain ⟨t, ht, hframe, hread⟩ := writes_of_exec_store 0x3000 (exec_interleave hv hdb heb) rfl
  have hstored : ∀ {k : Nat} {x : Byte},
      (interleaveBlocks v s.level (dataBlocksOf d v s.level) (eccBlocksOf e v s.level))[k]? = some x →
      t.mem.read? (0x3000 + k) = some x := fun {k x} hx => by
    obtain ⟨hk, -⟩ := List.getElem?_eq_some_iff.1 hx
    rw [hread, if_pos (by omega), Nat.add_sub_cancel_left, hx]
  rw [interleaveBlocks_length s v s.level h1 h2 _ _ hdb heb] at hread
  exact ⟨t, ht, hframe, fun b i hb hi => hstored (interleaveBlocks_data d hb hi _),
    fun b hl hb => hstored (interleaveBlocks_long d hl hb _),
    fun b i hb hi => hstored (interleaveBlocks_ecc d e h1 h2 hb hi),
    fun a ha => (hread a).trans (if_neg ha)⟩

end Sys2Proof.Machine
end

section
/-! SUPPORT. What GRID holds after a symbol is stored (R41, R172, R185, R186): the frame and the transposition cell by cell, and BUILD_FUNC and BUILD. -/

namespace Sys2Proof.Machine

/-! ## Cells of a matrix of rows -/

theorem cellOf_eq_of_getElem? {rows : List (List Module)} {r : List Module} {y : Nat} (h : rows[y]? = some r)
    (x : Nat) : cellOf rows y x = r.getD x .unset := by
  rw [cellOf, List.getD_eq_getElem?_getD (l := rows), h, Option.getD_some]

theorem cellOf_map_range {n y x : Nat} (g : Nat → Nat → Module) (hy : y < n) (hx : x < n) :
    cellOf ((List.range n).map fun y => (List.range n).map fun x => g y x) y x = g y x := by
  simp [cellOf, hy, hx]

theorem cellOf_gridRows {s y x : Nat} (g : Grid) (hy : y < s) (hx : x < s) : cellOf (gridRows s g) y x = g y x :=
  cellOf_map_range g hy hx

theorem gridRows_row_length (s : Nat) (g : Grid) : ∀ r ∈ gridRows s g, r.length = s := by simp [gridRows]

theorem transpose_cons {α : Type} (n : Nat) (r : List α) (rows : List (List α)) :
    transpose n (r :: rows) = List.zipWith List.cons r (transpose n rows) := rfl

/-- Transposing exchanges the row and the column of a cell. -/
theorem cellOf_transpose {n y x : Nat} (rows : List (List Module)) (hr : ∀ r ∈ rows, r.length = n) (hx : x < n)
    (hy : y < rows.length) : cellOf (transpose n rows) x y = cellOf rows y x := by
  induction rows generalizing y with
  | nil => simp at hy
  | cons r rs ih =>
    have hrs : ∀ r' ∈ rs, r'.length = n := fun r' h => hr r' (List.mem_cons_of_mem _ h)
    have hxr : x < r.length := by rwa [hr r List.mem_cons_self]
    have hxt : x < (transpose n rs).length := by rwa [transpose_length n rs hrs]
    have hrow : (transpose n (r :: rs))[x]? = some (r[x] :: (transpose n rs)[x]) := by
      simp [transpose_cons, hxr, hxt]
    rw [cellOf_eq_of_getElem? hrow]
    cases y with
    | zero => simp [cellOf, hxr]
    | succ y =>
      have := ih hrs (Nat.lt_of_succ_lt_succ hy)
      rw [cellOf_eq_of_getElem? (List.getElem?_eq_getElem hxt)] at this
      exact this

/-- Entry x of row y stands at y·n + x once rows of n entries are written one after the other. -/
theorem getElem?_flatten_of_rows {α : Type} {n x : Nat} (rows : List (List α)) (h : ∀ r ∈ rows, r.length = n)
    (hx : x < n) (y : Nat) : rows.flatten[y * n + x]? = rows[y]?.bind (·[x]?) := by
  induction rows generalizing y with
  | nil => simp
  | cons r rs ih =>
    have hr : r.length = n := h r List.mem_cons_self
    cases y with
    | zero => simp [List.getElem?_append_left (show x < r.length by omega)]
    | succ y =>
      rw [List.flatten_cons, Nat.succ_mul, List.getElem?_append_right (by omega), hr,
        show y * n + n + x - n = y * n + x by omega, ih (fun r' h' => h r' (List.mem_cons_of_mem _ h'))]
      rfl

theorem getElem?_flatten_eq_cellOf {n y x : Nat} {rows : List (List Module)} (h : ∀ r ∈ rows, r.length = n)
    (hy : y < rows.length) (hx : x < n) : rows.flatten[y * n + x]? = some (cellOf rows y x) := by
  have hxr : x < rows[y].length := by rwa [h _ (List.getElem_mem hy)]
  rw [getElem?_flatten_of_rows rows h hx, List.getElem?_eq_getElem hy, Option.bind_some,
    cellOf_eq_of_getElem? (List.getElem?_eq_getElem hy), List.getD_eq_getElem _ _ hxr, List.getElem?_eq_getElem hxr]

/-! ## The frame (R185) -/

/-- Inside the border stands the interior. -/
theorem cellOf_frame_interior {lead n s y x : Nat} {rows : List (List Module)} (hlen : rows.length = s)
    (hr : ∀ r ∈ rows, r.length = s) (hy : y < s) (hx : x < s) :
    cellOf (frame lead n s rows) (lead + y) (lead + x) = cellOf rows y x := by
  have hyl : y < rows.length := by omega
  have hxl : x < rows[y].length := by rwa [hr _ (List.getElem_mem hyl)]
  simp [cellOf, frame, List.getElem?_append, hyl, hxl]

/-- The border is Light. -/
theorem cellOf_frame_border {lead n s y x : Nat} {rows : List (List Module)} (hlen : rows.length = s)
    (hr : ∀ r ∈ rows, r.length = s) (hn : lead + s ≤ n) (hy : y < n) (hx : x < n)
    (h : ¬ (lead ≤ y ∧ y < lead + s ∧ lead ≤ x ∧ x < lead + s)) : cellOf (frame lead n s rows) y x = .light := by
  rcases Nat.lt_or_ge y lead with hlo | hlo
  · simp [cellOf, frame, List.getElem?_append, hlo, hx]
  obtain ⟨y, rfl⟩ := Nat.exists_eq_add_of_le hlo
  rcases Nat.lt_or_ge y s with hhi | hhi
  · have hyl : y < rows.length := by omega
    have hlr : rows[y].length = s := hr _ (List.getElem_mem hyl)
    rcases Nat.lt_or_ge x lead with hxlo | hxlo
    · simp [cellOf, frame, List.getElem?_append, hyl, hxlo]
    · have h1 : ¬ x - lead < s := by omega
      have h2 : x - lead - s < n - lead - s := by omega
      simp [cellOf, frame, List.getElem?_append, hyl, hlr, hxlo.not_gt, h1, h2]
  · have h1 : y - s < n - lead - s := by omega
    simp [cellOf, frame, List.getElem?_append, hlen, hhi.not_gt, h1, hx]

/-! ## Storage (R186) -/

/-- Interior cell (y, x) is cell (x, y) of the stored rows when GRID_TRANSPOSE, else cell (y, x) of them. -/
theorem cellOf_storedRows {s y x : Nat} {rows : List (List Module)} (par : Params) (hlen : rows.length = s)
    (hr : ∀ r ∈ rows, r.length = s) (hy : y < s) (hx : x < s) :
    cellOf (storedRows par s rows) (if par.gridTranspose then x else y) (if par.gridTranspose then y else x) =
      cellOf rows y x := by
  unfold storedRows
  split
  · exact cellOf_transpose rows hr hx (by omega)
  · rfl

/-- Frame cell (y, x) is byte y·185 + x (R41). -/
theorem frameBytes_getElem? {s y x : Nat} {rows : List (List Module)} (par : Params) (hlen : rows.length = s)
    (hr : ∀ r ∈ rows, r.length = s) (hs : s ≤ 177) (hy : y < 185) (hx : x < 185) :
    (frameBytes par s rows)[y * 185 + x]? = some (cellOf (frame 4 185 s (storedRows par s rows)) y x).code := by
  have hlen' := storedRows_length par s rows hlen hr
  have hr' := storedRows_row_length par s rows hlen hr
  have hfr := frame_row_length 4 185 s _ hr' (by omega)
  have hfl := frame_length 4 185 s _ hlen' (by omega)
  rw [frameBytes, frameSide, List.getElem?_map, getElem?_flatten_eq_cellOf hfr (by omega) hx, Option.map_some]

/-- Frame cell (y, x) of a stored symbol (R41, R186). -/
theorem State.storeGrid_read?_frame {s : State} {v y x : Nat} {rows : List (List Module)} (hv : v ≤ 40)
    (hlen : rows.length = side v) (hr : ∀ r ∈ rows, r.length = side v) (hy : y < 185) (hx : x < 185) :
    (s.storeGrid v rows).mem.read? (0x10000 + (y * 185 + x)) =
      some (cellOf (frame 4 185 (side v) (storedRows s.params (side v) rows)) y x).code := by
  have hs : side v ≤ 177 := by unfold side; omega
  have hbase : Region.grid.base + 0 = 0x10000 := rfl
  rw [storeGrid, store_read?, frameBytes_length _ _ _ hlen hr hs, hbase, if_pos (by omega), Nat.add_sub_cancel_left,
    frameBytes_getElem? _ hlen hr hs hy hx]

/-- The bytes outside GRID's frame cells are as before. -/
theorem State.storeGrid_read?_outside {s : State} {v a : Nat} {rows : List (List Module)} (hv : v ≤ 40)
    (hlen : rows.length = side v) (hr : ∀ r ∈ rows, r.length = side v)
    (ha : ¬ (0x10000 ≤ a ∧ a < 0x10000 + 34225)) : (s.storeGrid v rows).mem.read? a = s.mem.read? a := by
  have hbase : Region.grid.base + 0 = 0x10000 := rfl
  rw [storeGrid, store_read?, frameBytes_length _ _ _ hlen hr (by unfold side; omega), hbase, if_neg ha]

theorem cellAddr_eq (par : Params) (y x : Nat) : cellAddr par y x =
    0x10000 + ((4 + if par.gridTranspose then x else y) * 185 + (4 + if par.gridTranspose then y else x)) := by
  unfold cellAddr
  split <;> omega

/-- A symbol stored into GRID: its interior at the cells' addresses, Light around it, every other byte as before. -/
theorem gridHolds_storeGrid {s t : State} {v : Nat} (hv : v ≤ 40) {rows : List (List Module)}
    (hlen : rows.length = side v) (hr : ∀ r ∈ rows, r.length = side v) {cell : Nat → Nat → Module}
    (hcell : ∀ y x, y < side v → x < side v → cellOf rows y x = cell y x) (ht : t.mem = (s.storeGrid v rows).mem) :
    GridHolds s t v cell [] := by
  have hs : side v ≤ 177 := by unfold side; omega
  have hlen' := storedRows_length s.params (side v) rows hlen hr
  have hr' := storedRows_row_length s.params (side v) rows hlen hr
  rw [GridHolds, ht]
  refine ⟨fun y x hy hx => ?_, fun y x hy hx h => ?_, fun a ha _ => State.storeGrid_read?_outside hv hlen hr ha⟩
  · have hY : (if s.params.gridTranspose then x else y) < side v := by split <;> assumption
    have hX : (if s.params.gridTranspose then y else x) < side v := by split <;> assumption
    rw [cellAddr_eq, State.storeGrid_read?_frame hv hlen hr (by omega) (by omega),
      cellOf_frame_interior hlen' hr' hY hX, cellOf_storedRows _ hlen hr hy hx, hcell y x hy hx]
  · rw [State.storeGrid_read?_frame hv hlen hr hy hx, cellOf_frame_border hlen' hr' (by omega) hy hx (by omega)]
    rfl

/-! ## BUILD_FUNC and BUILD (R188, R189) -/

theorem exec_buildFunc {s : State} {v : Nat} (hv : s.AtVersion v) (m : MaskId) :
    exec (.buildFunc m) s = .next (s.storeGrid v (gridRows (side v) (functionGrid v s.level m))).finish := by
  obtain ⟨hver, h1, h2⟩ := hv
  exact withVersion_of_legal s v _ hver h1 h2

theorem exec_build {s : State} {v : Nat} {cw : List Byte} (hv : s.AtVersion v) (m : MaskId)
    (hcw : s.load .cw 0 (totalCodewords v) = some cw) :
    exec (.build m) s = .next ((s.storeGrid v (symbolRows s.params v s.level m cw)).setMask m).finish := by
  obtain ⟨hver, h1, h2⟩ := hv
  exact (withVersion_of_legal s v _ hver h1 h2).trans ((complete_eq_next _ _).2
    ⟨_, (buildEffect_eq_some m v s _).2 ⟨cw, hcw, rfl⟩, rfl⟩)

/-- Settles O29: the interior stored is the function-pattern grid. -/
theorem buildFuncStoresFunctionPatterns : Obligations.BuildFuncStoresFunctionPatterns := by
  intro s v m hv
  have ⟨_, _, h2⟩ := hv
  exact ⟨_, exec_buildFunc hv m, rfl, gridHolds_storeGrid h2 (gridRows_length _ _) (gridRows_row_length _ _)
    (fun _ _ hy hx => cellOf_gridRows _ hy hx) rfl⟩

/-- Settles O33: the codewords read are those written, and the interior stored is their symbol. -/
theorem buildStoresSymbol : Obligations.BuildStoresSymbol := by
  intro s v m cw hv hlen hcw
  have ⟨_, _, h2⟩ := hv
  have hload : s.load .cw 0 (totalCodewords v) = some cw :=
    (s.load_eq_some _ _ _ _).2 ⟨hlen, fun k hk => hcw k (by omega)⟩
  exact ⟨_, exec_build hv m hload, rfl, gridHolds_storeGrid h2 (placedRows_length _ _ _)
    (placedRows_row_length _ _ _) (fun _ _ _ _ => rfl) rfl⟩

end Sys2Proof.Machine
end

section
/-! SUPPORT. The order of the zigzag (R183), and what the data placement puts into the data area in that order (R184). -/

namespace Sys2Proof.Machine

/-! ## The order of the zigzag (R183) -/

/-- The column the zigzag has reached before its k-th column pair: one less once column 6 is passed. -/
def pairColumn (s k : Nat) : Nat := if 6 ≤ s - 1 - 2 * k then s - 1 - 2 * k else s - 2 - 2 * k

/-- The right column of the k-th column pair, with column 6 skipped. -/
def pairRight (s k : Nat) : Nat := if 6 < s - 1 - 2 * k then s - 1 - 2 * k else s - 2 - 2 * k

/-- The rows of the k-th column pair in the order visited: upward for even k. -/
def pairRows (s k : Nat) : List Nat := if k % 2 = 0 then (List.range s).reverse else List.range s

theorem pairRows_length (s k : Nat) : (pairRows s k).length = s := by unfold pairRows; split <;> simp

theorem pairRows_getElem? {s k vert : Nat} (h : vert < s) :
    (pairRows s k)[vert]? = some (if k % 2 = 0 then s - 1 - vert else vert) := by
  unfold pairRows
  split
  · rw [List.getElem?_reverse (by simpa using h), List.length_range, List.getElem?_range (by omega)]
  · simp [h]

/-- The k-th column pair, then the rest of the zigzag. -/
theorem zigzagFrom_pairColumn {v k : Nat} (hk : 2 * k + 1 < side v) :
    zigzagFrom (side v) (side v - k) (pairColumn (side v) k) =
      pairCells (pairRight (side v) k) (pairRows (side v) k) ++
        zigzagFrom (side v) (side v - (k + 1)) (pairColumn (side v) (k + 1)) := by
  have hs : side v = 4 * v + 17 := rfl
  have hright : (if pairColumn (side v) k = 6 then 5 else pairColumn (side v) k) = pairRight (side v) k := by
    unfold pairColumn pairRight
    split_ifs <;> omega
  have hnext : pairRight (side v) k - 2 = pairColumn (side v) (k + 1) := by
    unfold pairColumn pairRight
    split_ifs <;> omega
  have hpos : pairColumn (side v) k ≠ 0 := by
    unfold pairColumn
    split <;> omega
  have hup : (pairRight (side v) k + 1) / 2 % 2 = 0 ↔ k % 2 = 0 := by
    unfold pairRight
    split <;> omega
  rw [show side v - k = side v - (k + 1) + 1 by omega, zigzagFrom, if_neg hpos]
  simp only [hright, hnext, hup, pairRows]

/-- After k column pairs of 2·s cells each the zigzag goes on at the k-th. -/
theorem drop_zigzag {v k : Nat} (hk : 2 * k < side v) :
    (zigzag (side v)).drop (2 * (k * side v)) = zigzagFrom (side v) (side v - k) (pairColumn (side v) k) := by
  induction k with
  | zero =>
    have : pairColumn (side v) 0 = side v - 1 := if_pos (by unfold side; omega)
    rw [this]
    simp [zigzag]
  | succ k ih =>
    have hlen : (pairCells (pairRight (side v) k) (pairRows (side v) k)).length = 2 * side v := by
      rw [pairCells_length, pairRows_length]
    rw [show 2 * ((k + 1) * side v) = 2 * (k * side v) + 2 * side v by ring, ← List.drop_drop, ih (by omega),
      zigzagFrom_pairColumn (by omega), ← hlen, List.drop_left]

/-- Each row of the k-th column pair has its right cell, then its left one. -/
theorem zigzag_getElem? {v k vert e : Nat} (hk : 2 * k + 1 < side v) (hvert : vert < side v) (he : e < 2) :
    (zigzag (side v))[2 * (k * side v + vert) + e]? =
      some (if k % 2 = 0 then side v - 1 - vert else vert, pairRight (side v) k - e) := by
  have hcell := pairCells_getElem? (pairRight (side v) k) (pairRows (side v) k) vert _ (pairRows_getElem? hvert)
  rw [Nat.mul_add, Nat.add_assoc, ← List.getElem?_drop, drop_zigzag (by omega), zigzagFrom_pairColumn hk,
    List.getElem?_append_left (by rw [pairCells_length, pairRows_length]; omega)]
  obtain rfl | rfl : e = 0 ∨ e = 1 := by omega
  · exact hcell.1
  · exact hcell.2

theorem zigzag_length (v : Nat) : (zigzag (side v)).length = side v * (side v - 1) := by
  have hset : (zigzag (side v)).toFinset = Finset.range (side v) ×ˢ interiorIndices v := by
    ext ⟨y, x⟩
    rw [List.mem_toFinset, (zigzag_covers v).mem_iff, Finset.mem_product, Finset.mem_range, mem_interiorIndices_iff]
    tauto
  rw [← List.toFinset_card_of_nodup (zigzag_covers v).nodup, hset, Finset.card_product, Finset.card_range,
    interiorIndices, Finset.card_erase_of_mem (by simp [side]), Finset.card_range]

/-- Settles O30: the zigzag covers the columns, column pair after column pair. -/
theorem zigzagVisitsEveryCellOnce : Obligations.ZigzagVisitsEveryCellOnce := fun v _ _ =>
  ⟨(zigzag_covers v).nodup, zigzag_length v, (zigzag_covers v).mem_iff, fun _ _ _ hk hvert he =>
    zigzag_getElem? hk hvert he⟩

/-! ## Data placement (R184) -/

/-- The module of a data-area cell: its bit of the stream, masked, or a remainder module once the stream has run out. -/
def placedModule (par : Params) (m : MaskId) (bit : Option Bool) (y x : Nat) : Module :=
  .ofBit (bit.elim (par.remainderMasked && maskBit m x y) (· ^^ maskBit m x y))

/-- The k-th cell gets bit k of the stream. -/
theorem placeBits_getElem? (par : Params) (m : MaskId) (cells : List (Nat × Nat)) (bits : List Bool) (k : Nat) :
    (placeBits par m cells bits)[k]? = cells[k]?.map fun c => (c, placedModule par m bits[k]? c.1 c.2) := by
  induction cells generalizing bits k with
  | nil => rfl
  | cons c cs ih =>
    obtain ⟨y, x⟩ := c
    cases bits with
    | nil =>
      cases k with
      | zero => rfl
      | succ k => exact ih [] k
    | cons b bs =>
      cases k with
      | zero => rfl
      | succ k => exact ih bs k

/-- The cells placed are the data-area cells, in their order. -/
theorem placeBits_map_fst (par : Params) (m : MaskId) (cells : List (Nat × Nat)) (bits : List Bool) :
    (placeBits par m cells bits).map Prod.fst = cells := by
  refine List.ext_getElem? fun k => ?_
  rw [List.getElem?_map, placeBits_getElem?, Option.map_map]
  exact Option.map_id'

/-- A cell that is set keeps its module. -/
theorem cellOf_placedRows_of_set {s y x : Nat} {g : Grid} (placed : List ((Nat × Nat) × Module)) (hy : y < s)
    (hx : x < s) (h : g y x ≠ .unset) : cellOf (placedRows s g placed) y x = g y x :=
  (cellOf_map_range _ hy hx).trans (if_neg h)

/-- With no cell placed twice, an Unset cell gets the module placed there. -/
theorem cellOf_placedRows_of_mem {s y x : Nat} {g : Grid} {md : Module} {placed : List ((Nat × Nat) × Module)}
    (hy : y < s) (hx : x < s) (h : g y x = .unset) (hnd : (placed.map Prod.fst).Nodup)
    (hmem : ((y, x), md) ∈ placed) : cellOf (placedRows s g placed) y x = md := by
  have hfind : ((placed.filter fun c => c.1.1 = y).find? fun c => c.1.2 = x) = some ((y, x), md) := by
    rw [List.find?_filter]
    cases hf : placed.find? _ with
    | none => exact absurd (List.find?_eq_none.1 hf _ hmem) (by simp)
    | some c =>
      have hc : c.1 = (y, x) := by simpa [Prod.ext_iff] using List.find?_some hf
      rw [List.inj_on_of_nodup_map hnd (List.mem_of_find?_eq_some hf) hmem hc]
  refine (cellOf_map_range _ hy hx).trans ((if_pos h).trans ?_)
  rw [hfind]

/-! ## The stream (R162, R182) -/

theorem bitsOf_getElem? (b : Byte) {i : Nat} (hi : i < 8) : (bitsOf b)[i]? = some (b.getLsbD (7 - i)) := by
  interval_cases i <;> rfl

/-- Bit k of the codewords, most significant first. -/
theorem flatMap_bitsOf_getElem? (cw : List Byte) (k : Nat) :
    (cw.flatMap bitsOf)[k]? = if k < 8 * cw.length then some (streamBit cw k) else none := by
  split
  · next h =>
    have hk : k / 8 < cw.length := by omega
    rw [getElem?_flatMap_of_length bitsOf (n := 8) (fun _ => rfl) cw k (by omega), List.getElem?_eq_getElem hk,
      Option.bind_some, bitsOf_getElem? _ (Nat.mod_lt _ (by decide)), streamBit, List.getD_eq_getElem _ _ hk]
  · next h =>
    have hlen : (cw.flatMap bitsOf).length = cw.length * 8 := by simp [List.length_flatMap, bitsOf]
    exact List.getElem?_eq_none (by omega)

/-! ## The symbol -/

/-- An interior cell that is Unset after steps 0 to 5 is a data-area cell (R190). -/
theorem exists_dataCells_getElem? {v y x : Nat} {lv : Level} {m : MaskId} (hy : y < side v) (hx : x < side v)
    (h : functionGrid v lv m y x = .unset) : ∃ k : Nat, (dataCells v lv m)[k]? = some (y, x) := by
  have h6 : x ≠ 6 := ((functionGrid_eq_unset_iff v lv m y x).1 h).2.1
  have hmem : (y, x) ∈ dataCells v lv m :=
    (mem_dataCells_iff v lv m (y, x)).2 ⟨((zigzag_covers v).mem_iff y x).2 ⟨hy, hx, h6⟩, h⟩
  exact List.mem_iff_getElem?.1 hmem

/-- The k-th data-area cell of a symbol has the module of bit k of its codewords. -/
theorem cellOf_symbolRows_of_data {v k y x : Nat} {lv : Level} {m : MaskId} (par : Params) (cw : List Byte)
    (h : (dataCells v lv m)[k]? = some (y, x)) :
    cellOf (symbolRows par v lv m cw) y x = placedModule par m (cw.flatMap bitsOf)[k]? y x := by
  obtain ⟨hz, hu⟩ := (mem_dataCells_iff v lv m (y, x)).1 (List.mem_of_getElem? h)
  obtain ⟨hy, hx, -⟩ := ((zigzag_covers v).mem_iff y x).1 hz
  refine cellOf_placedRows_of_mem hy hx hu ?_ (List.mem_of_getElem? (i := k) ?_)
  · rw [placeBits_map_fst]
    exact (zigzag_covers v).nodup.filter _
  · rw [placeBits_getElem?, h, Option.map_some]

/-- Settles O31: a data-area cell has the module of its bit of the stream, any other cell keeps its own. -/
theorem dataBitsPlacedMasked : Obligations.DataBitsPlacedMasked := by
  refine fun par v lv m cw _ _ => ⟨fun k y x h => ?_, fun y x hy hx h => cellOf_placedRows_of_set _ hy hx h⟩
  rw [cellOf_symbolRows_of_data par cw h, flatMap_bitsOf_getElem?]
  split <;> rfl

/-- Settles O32: a cell left Unset by steps 0 to 5 is a data-area cell, and step 6 places a bit there. -/
theorem completedSymbolHasNoUnset : Obligations.CompletedSymbolHasNoUnset := by
  intro par v lv m cw y x _ _ hy hx
  by_cases h : functionGrid v lv m y x = .unset
  · obtain ⟨k, hk⟩ := exists_dataCells_getElem? hy hx h
    rw [cellOf_symbolRows_of_data par cw hk]
    exact Module.ofBit_ne_unset _
  · rwa [symbolRows, cellOf_placedRows_of_set _ hy hx h]

end Sys2Proof.Machine
end

section
/-! SUPPORT. The function patterns as they stand in every symbol (R173 to R181): what each step writes, and that no later step writes another module over it. -/

namespace Sys2Proof.Machine

/-! ## Writing squares and bits -/

theorem gap_self (a : Nat) : gap a a = 0 := by simp [gap]

/-- A cell is within r of a centre when its row and its column are. -/
theorem near_iff (y x cy cx r : Nat) :
    max (gap y cy) (gap x cx) ≤ r ↔ (y ≤ cy + r ∧ cy ≤ y + r) ∧ x ≤ cx + r ∧ cx ≤ x + r := by
  unfold gap
  omega

/-- Where all squares that reach a cell write the same module, it holds that module once one of them does. -/
theorem Grid.rings_eq_of_agree {r : Nat} {val : Nat → Module} {md : Module} {centres : List (Nat × Nat)} {g : Grid}
    {y x : Nat} (hval : ∀ c ∈ centres, max (gap y c.1) (gap x c.2) ≤ r → val (max (gap y c.1) (gap x c.2)) = md)
    (h : g y x = md ∨ ∃ c ∈ centres, max (gap y c.1) (gap x c.2) ≤ r) :
    centres.foldl (Grid.ring r val) g y x = md := by
  induction centres generalizing g with
  | nil => exact h.resolve_right (by simp)
  | cons c cs ih =>
    refine ih (fun c' hc' => hval c' (List.mem_cons_of_mem _ hc')) ?_
    by_cases hc : max (gap y c.1) (gap x c.2) ≤ r
    · exact .inl ((ring_of_near r val g c y x hc).trans (hval c List.mem_cons_self hc))
    · rw [ring_of_far r val g c y x (by omega)]
      exact h.imp_right fun ⟨c', hc', hnear⟩ =>
        ⟨c', (List.mem_cons.1 hc').resolve_left fun e => hc (e ▸ hnear), hnear⟩

/-- Squares that do not reach a cell leave it. -/
theorem Grid.rings_of_far {r : Nat} {val : Nat → Module} {centres : List (Nat × Nat)} {g : Grid} {y x : Nat}
    (h : ∀ c ∈ centres, r < max (gap y c.1) (gap x c.2)) : centres.foldl (Grid.ring r val) g y x = g y x :=
  rings_eq_of_agree (fun c hc hnear => absurd (h c hc) (by omega)) (.inl rfl)

/-- A square that alone reaches a cell writes it, by its distance. -/
theorem Grid.rings_of_near {r : Nat} {val : Nat → Module} {centres : List (Nat × Nat)} {g : Grid} {c : Nat × Nat}
    {y x : Nat} (hc : c ∈ centres) (hnear : max (gap y c.1) (gap x c.2) ≤ r)
    (honly : ∀ c' ∈ centres, max (gap y c'.1) (gap x c'.2) ≤ r → c' = c) :
    centres.foldl (Grid.ring r val) g y x = val (max (gap y c.1) (gap x c.2)) :=
  rings_eq_of_agree (fun c' hc' hnear' => by rw [honly c' hc' hnear']) (.inr ⟨c, hc, hnear⟩)

/-- Two copies of n bits: where bit i has a place that no other bit has, that place holds it afterwards. -/
theorem Grid.setAll_bits {n i : Nat} {p q : Nat → Nat × Nat} (b : Nat → Module) (g : Grid) {y x : Nat} (hi : i < n)
    (hplace : (y, x) = p i ∨ (y, x) = q i) (hother : ∀ j < n, (y, x) = p j ∨ (y, x) = q j → j = i) :
    g.setAll ((List.range n).flatMap fun i => [(p i, b i), (q i, b i)]) y x = b i := by
  have hmem : (y, x) ∈ ((List.range n).flatMap fun i => [(p i, b i), (q i, b i)]).map Prod.fst := by
    simp only [List.mem_map, List.mem_flatMap, List.mem_range, List.mem_cons, List.not_mem_nil, or_false]
    exact hplace.elim (fun h => ⟨_, ⟨i, hi, .inl rfl⟩, h.symm⟩) fun h => ⟨_, ⟨i, hi, .inr rfl⟩, h.symm⟩
  have hval := setAll_of_mem _ g y x hmem
  simp only [List.mem_flatMap, List.mem_range, List.mem_cons, List.not_mem_nil, or_false, Prod.mk.injEq] at hval
  obtain ⟨j, hj, ⟨hpj, hbj⟩ | ⟨hqj, hbj⟩⟩ := hval
  · rw [hbj, hother j hj (.inl hpj)]
  · rw [hbj, hother j hj (.inr hqj)]

/-! ## What a step leaves -/

theorem timingStep_eq_of_set {g : Grid} {y x : Nat} {md : Module} (h : g y x = md) (hmd : md ≠ .unset) :
    timingStep g y x = md := (timingStep_of_set g y x (h ▸ hmd)).trans h

/-- The timing patterns: Dark where the coordinate that is not 6 is even (R181). -/
theorem timingStep_of_unset {g : Grid} {y x : Nat} (h : g y x = .unset) (h6 : y = 6 ∨ x = 6) :
    timingStep g y x = .ofBit (decide ((y + x) % 2 = 0)) := by
  rw [timingStep, if_pos h]
  split
  · next hy => rw [show x % 2 = (y + x) % 2 by omega]
  · next hy => rw [if_pos (h6.resolve_left hy), show y % 2 = (y + x) % 2 by omega]

theorem versionStep_of_not_mem {v : Nat} {g : Grid} {y x : Nat} (h : (y, x) ∉ versionArea v) :
    versionStep v g y x = g y x := by
  unfold versionStep
  split
  · next hv =>
    have hplace := (not_mem_versionArea_iff v y x).1 h hv
    exact Grid.setAll_of_not_mem _ _ _ _ (mt (mem_versionCells_iff v (y, x)).1 hplace)
  · rfl

/-- The module of an alignment pattern at distance d from its centre (R176). -/
def alignmentModule (d : Nat) : Module := if d = 1 then .light else .dark

theorem alignmentModule_ne_unset (d : Nat) : alignmentModule d ≠ .unset := by unfold alignmentModule; split <;> decide

theorem alignmentStep_eq (v : Nat) (g : Grid) :
    alignmentStep v g = (alignmentCentres v).foldl (Grid.ring 2 alignmentModule) g := rfl

/-- The module of a finder pattern or its separator at distance d from the centre (R173). -/
def finderModule (d : Nat) : Module := if d = 0 ∨ d = 1 ∨ d = 3 then .dark else .light

theorem finderModule_ne_unset (d : Nat) : finderModule d ≠ .unset := by unfold finderModule; split <;> decide

theorem finderStep_eq (s : Nat) (g : Grid) :
    finderStep s g = [(3, 3), (3, s - 4), (s - 4, 3)].foldl (Grid.ring 4 finderModule) g := rfl

/-- The places of the format information, both copies (R178). -/
theorem exists_eq_formatCell_iff {s : Nat} (hs : 15 ≤ s) (y x : Nat) :
    (∃ i, i < 15 ∧ ((y, x) = formatCell1 i ∨ (y, x) = formatCell2 s i)) ↔
      ((x = 8 ∧ y < 9 ∧ y ≠ 6) ∨ (y = 8 ∧ x < 9 ∧ x ≠ 6)) ∨
        ((y = 8 ∧ s - 8 ≤ x ∧ x < s) ∨ (x = 8 ∧ s - 7 ≤ y ∧ y < s)) := by
  simp only [and_or_left, exists_or, exists_eq_formatCell1_iff, exists_eq_formatCell2_iff hs]

/-- Off the places of the format information and the dark module, step 4 does nothing. -/
theorem functionGrid_of_not_format {v y x : Nat} (lv : Level) (m : MaskId) (h1 : 1 ≤ v)
    (hf : ¬ (((x = 8 ∧ y < 9 ∧ y ≠ 6) ∨ (y = 8 ∧ x < 9 ∧ x ≠ 6)) ∨
      ((y = 8 ∧ side v - 8 ≤ x ∧ x < side v) ∨ (x = 8 ∧ side v - 8 ≤ y ∧ y < side v)))) :
    functionGrid v lv m y x =
      timingStep (alignmentStep v (versionStep v (finderStep (side v) clearStep))) y x := by
  have hs : 21 ≤ side v := by unfold side; omega
  have hplace : ¬ ∃ i, i < 15 ∧ ((y, x) = formatCell1 i ∨ (y, x) = formatCell2 (side v) i) := by
    rw [exists_eq_formatCell_iff (by omega)]
    omega
  refine timingStep_congr ?_
  rw [formatStep_of_not_format _ _ _ _ hplace, if_neg (by omega)]

/-! ## Where the alignment patterns stand (R176) -/

/-- The squares around the alignment centres keep off the corners, the format and the version information: a centre
lies on row 6 or on column 6, with its other coordinate between the corners, or off both. -/
theorem alignmentCentre_cases {v : Nat} (h1 : 1 ≤ v) (h2 : v ≤ 40) {c : Nat × Nat} (hc : c ∈ alignmentCentres v) :
    (c.1 = 6 ∧ 11 ≤ c.2 ∧ c.2 + 14 ≤ side v) ∨ (c.2 = 6 ∧ 11 ≤ c.1 ∧ c.1 + 14 ≤ side v) ∨
      (11 ≤ c.1 ∧ c.1 + 7 ≤ side v ∧ 11 ≤ c.2 ∧ c.2 + 7 ≤ side v) := by
  have hs : 21 ≤ side v := by unfold side; omega
  obtain ⟨i, j, hi, hj, hij, rfl⟩ := (mem_alignmentCentres_iff v c).1 hc
  have hpi := alignmentCoord_placed h2 h1 hi
  have hpj := alignmentCoord_placed h2 h1 hj
  dsimp only
  omega

/-- Only one alignment centre is within 2 of a cell. -/
theorem alignmentCentre_unique {v y x : Nat} (h1 : 1 ≤ v) (h2 : v ≤ 40) {c c' : Nat × Nat}
    (hc : c ∈ alignmentCentres v) (hc' : c' ∈ alignmentCentres v) (hnear : max (gap y c.1) (gap x c.2) ≤ 2)
    (hnear' : max (gap y c'.1) (gap x c'.2) ≤ 2) : c' = c := by
  obtain ⟨i, j, hi, hj, -, rfl⟩ := (mem_alignmentCentres_iff v c).1 hc
  obtain ⟨i', j', hi', hj', -, rfl⟩ := (mem_alignmentCentres_iff v c').1 hc'
  rw [near_iff] at hnear hnear'
  have hsame : ∀ {k l : Nat}, k < (alignmentCoords v).length → l < (alignmentCoords v).length →
      alignmentCoord v k ≤ alignmentCoord v l + 4 → alignmentCoord v l ≤ alignmentCoord v k + 4 → k = l := by
    intro k l hk hl hkl hlk
    rcases Nat.lt_trichotomy k l with h | h | h
    · have := alignmentCoord_spaced v h2 h1 l hl k h
      omega
    · exact h
    · have := alignmentCoord_spaced v h2 h1 k hk l h
      omega
  rw [hsame hi' hi (by omega) (by omega), hsame hj' hj (by omega) (by omega)]

/-! ## The finder patterns (R173) -/

theorem mem_finderCentres_iff {s : Nat} (hs : 21 ≤ s) (c : Nat × Nat) :
    c ∈ [(3, 3), (3, s - 4), (s - 4, 3)] ↔
      (c.1 = 3 ∧ c.2 = 3) ∨ (c.1 = 3 ∧ c.2 + 4 = s) ∨ (c.1 + 4 = s ∧ c.2 = 3) := by
  simp only [List.mem_cons, List.not_mem_nil, or_false, Prod.ext_iff]
  omega

/-- The squares of the three finder patterns do not meet. -/
theorem finderStep_of_near {s : Nat} (hs : 21 ≤ s) (g : Grid) {c : Nat × Nat} {y x : Nat}
    (hc : c ∈ [(3, 3), (3, s - 4), (s - 4, 3)]) (hnear : max (gap y c.1) (gap x c.2) ≤ 4) :
    finderStep s g y x = finderModule (max (gap y c.1) (gap x c.2)) := by
  rw [finderStep_eq]
  refine Grid.rings_of_near hc hnear fun c' hc' hnear' => ?_
  rw [mem_finderCentres_iff hs] at hc hc'
  rw [near_iff] at hnear hnear'
  exact Prod.ext (by omega) (by omega)

/-- In every symbol the three finder patterns with their separators stand. -/
theorem functionGrid_of_near_finder {v y x : Nat} (h1 : 1 ≤ v) (h2 : v ≤ 40) (lv : Level) (m : MaskId)
    {c : Nat × Nat} (hc : c ∈ [(3, 3), (3, side v - 4), (side v - 4, 3)]) (hnear : max (gap y c.1) (gap x c.2) ≤ 4) :
    functionGrid v lv m y x = finderModule (max (gap y c.1) (gap x c.2)) := by
  have hs : 21 ≤ side v := by unfold side; omega
  have hcorner : (y ≤ 7 ∧ x ≤ 7) ∨ (y ≤ 7 ∧ side v - 8 ≤ x) ∨ (side v - 8 ≤ y ∧ x ≤ 7) := by
    have := (mem_finderCentres_iff hs c).1 hc
    rw [near_iff] at hnear
    omega
  have halign : ∀ c' ∈ alignmentCentres v, 2 < max (gap y c'.1) (gap x c'.2) := fun c' hc' => by
    have := alignmentCentre_cases h1 h2 hc'
    rw [← Nat.not_le, near_iff]
    omega
  have hversion : (y, x) ∉ versionArea v := by
    rw [mem_versionArea_iff]
    omega
  rw [functionGrid_of_not_format lv m h1 (by omega)]
  refine timingStep_eq_of_set ?_ (finderModule_ne_unset _)
  rw [alignmentStep_eq, Grid.rings_of_far halign, versionStep_of_not_mem hversion, finderStep_of_near hs _ hc hnear]

/-- Settles O23: each cell of a footprint is within 4 of its centre. -/
theorem finderPatternsPlaced : Obligations.FinderPatternsPlaced := by
  intro v lv m y x h1 h2 hy hx
  have hs : side v = 4 * v + 17 := rfl
  exact ⟨functionGrid_of_near_finder h1 h2 lv m (c := (3, 3)) (by simp) (by rw [near_iff]; omega),
    functionGrid_of_near_finder h1 h2 lv m (c := (3, side v - 4)) (by simp) (by rw [near_iff]; omega),
    functionGrid_of_near_finder h1 h2 lv m (c := (side v - 4, 3)) (by simp) (by rw [near_iff]; omega)⟩

/-! ## The alignment patterns (R176, R177) -/

/-- In every symbol the alignment patterns stand. -/
theorem functionGrid_of_near_alignment {v y x : Nat} (h1 : 1 ≤ v) (h2 : v ≤ 40) (lv : Level) (m : MaskId)
    {c : Nat × Nat} (hc : c ∈ alignmentCentres v) (hnear : max (gap y c.1) (gap x c.2) ≤ 2) :
    functionGrid v lv m y x = alignmentModule (max (gap y c.1) (gap x c.2)) := by
  have hs : 21 ≤ side v := by unfold side; omega
  have hplace := alignmentCentre_cases h1 h2 hc
  have hnear' := (near_iff y x c.1 c.2 2).1 hnear
  rw [functionGrid_of_not_format lv m h1 (by omega)]
  refine timingStep_eq_of_set ?_ (alignmentModule_ne_unset _)
  rw [alignmentStep_eq, Grid.rings_of_near hc hnear fun c' hc' => alignmentCentre_unique h1 h2 hc hc' hnear]

/-- Every pair of coordinates but the three corner pairs is a centre. -/
theorem mem_alignmentCentres_of_mem {v cy cx : Nat} (h1 : 2 ≤ v) (hy : cy ∈ alignmentCoords v)
    (hx : cx ∈ alignmentCoords v) (h66 : ¬ (cy = 6 ∧ cx = 6)) (h6s : ¬ (cy = 6 ∧ cx = side v - 7))
    (hs6 : ¬ (cy = side v - 7 ∧ cx = 6)) : (cy, cx) ∈ alignmentCentres v := by
  have hindex : ∀ {z}, z ∈ alignmentCoords v → ∃ i < (alignmentCoords v).length, alignmentCoord v i = z := by
    intro z hz
    obtain ⟨i, hi, rfl⟩ := List.mem_iff_getElem.1 hz
    exact ⟨i, hi, List.getD_eq_getElem _ _ hi⟩
  obtain ⟨i, hi, rfl⟩ := hindex hy
  obtain ⟨j, hj, rfl⟩ := hindex hx
  have hzero := alignmentCoord_zero h1
  have hlast := alignmentCoord_last h1
  refine (mem_alignmentCentres_iff v _).2 ⟨i, j, hi, hj, ?_, rfl⟩
  rintro (⟨rfl, rfl⟩ | ⟨rfl, rfl⟩ | ⟨rfl, rfl⟩)
  · exact h66 ⟨hzero, hzero⟩
  · exact h6s ⟨hzero, hlast⟩
  · exact hs6 ⟨hlast, hzero⟩

/-- The table of R177 is its closed form. -/
theorem printedAlignment_getElem? : ∀ v, v ≤ 40 → 1 ≤ v → printedAlignment[v - 1]? = some (alignmentCoords v) := by
  decide +kernel

/-- The coordinates after the first, in steps of one width up to the last (R177). -/
theorem alignmentCoords_getElem? {v i : Nat} (h2 : 2 ≤ v) (h1 : 1 ≤ i) (hi : i < v / 7 + 2) :
    (alignmentCoords v)[i]? = some (side v - 7 -
      (v / 7 + 2 - 1 - i) * (2 * ((8 * v + 3 * (v / 7 + 2) + 5) / (4 * (v / 7 + 2) - 4)))) := by
  obtain ⟨i, rfl⟩ := Nat.exists_eq_add_of_le' h1
  rw [alignmentCoords, if_neg (by omega), List.getElem?_cons_succ, List.getElem?_map, List.getElem?_range (by omega),
    Option.map_some, show v / 7 + 2 - 2 - i = v / 7 + 2 - 1 - (i + 1) by omega]

/-- Settles O24: every pair but the corner pairs is a centre, and the cell is within 2 of it. -/
theorem alignmentPatternsPlaced : Obligations.AlignmentPatternsPlaced := by
  refine ⟨fun v h1 h2 => printedAlignment_getElem? v h2 h1, fun v lv m h2 h40 => ?_⟩
  refine ⟨alignmentCoords_length h2, ?_, fun i h1 hi => alignmentCoords_getElem? h2 h1 hi, ?_⟩
  · rw [alignmentCoords, if_neg (by omega), List.getElem?_cons_zero]
  · intro cy hcy cx hcx h66 h6s hs6 dy dx hdy hdx
    have hc := mem_alignmentCentres_of_mem h2 hcy hcx h66 h6s hs6
    have hplace := alignmentCentre_cases (by omega) h40 hc
    have hy : gap (cy - 2 + dy) cy = gap dy 2 := by unfold gap; omega
    have hx : gap (cx - 2 + dx) cx = gap dx 2 := by unfold gap; omega
    have hnear : max (gap (cy - 2 + dy) cy) (gap (cx - 2 + dx) cx) ≤ 2 := by rw [near_iff]; omega
    rw [functionGrid_of_near_alignment (by omega) h40 lv m hc hnear, hy, hx, alignmentModule]

/-! ## The format information (R178 to R180) -/

theorem formatCell1_eq (i : Nat) : formatCell1 i =
    (if i ≤ 5 then i else if i = 6 then 7 else 8, if i ≤ 7 then 8 else if i = 8 then 7 else 14 - i) := by
  unfold formatCell1
  split_ifs <;> simp <;> omega

theorem formatCell2_eq (s i : Nat) :
    formatCell2 s i = (if i ≤ 7 then 8 else s - 15 + i, if i ≤ 7 then s - 1 - i else 8) := by
  unfold formatCell2
  split <;> rfl

/-- No place of the format information belongs to two bits. -/
theorem formatCell_unique {s i j : Nat} (hs : 21 ≤ s) (hi : i < 15) (hj : j < 15) {c : Nat × Nat}
    (hci : c = formatCell1 i ∨ c = formatCell2 s i) (hcj : c = formatCell1 j ∨ c = formatCell2 s j) : j = i := by
  rw [formatCell1_eq, formatCell2_eq, Prod.ext_iff, Prod.ext_iff] at hci hcj
  dsimp only at hci hcj
  split_ifs at hci hcj <;> omega

/-- In every symbol bit i of the format information stands at both of its places. -/
theorem functionGrid_of_format {v i y x : Nat} (h1 : 1 ≤ v) (lv : Level) (m : MaskId) (hi : i < 15)
    (hplace : (y, x) = formatCell1 i ∨ (y, x) = formatCell2 (side v) i) :
    functionGrid v lv m y x = .ofBit ((fmtInfo lv m).testBit i) := by
  have hs : 21 ≤ side v := by unfold side; omega
  have hdark : ¬ (y = side v - 8 ∧ x = 8) := by
    have := (exists_eq_formatCell_iff (by omega) y x).1 ⟨i, hi, hplace⟩
    omega
  refine timingStep_eq_of_set ?_ (Module.ofBit_ne_unset _)
  rw [formatStep, Grid.set_apply, if_neg hdark]
  exact Grid.setAll_bits _ _ hi hplace fun j hj hplace' => formatCell_unique hs hi hj hplace hplace'

/-- In every symbol the module (s − 8, 8) is Dark (R180). -/
theorem functionGrid_dark (v : Nat) (lv : Level) (m : MaskId) : functionGrid v lv m (side v - 8) 8 = .dark :=
  timingStep_eq_of_set (by rw [formatStep, Grid.set_apply, if_pos ⟨rfl, rfl⟩]) (by decide)

/-- FMTINFO by its data bits, its quotient by the generator, and the table of R179. -/
theorem fmtInfo_code : ∀ lv ∈ [Level.L, .M, .Q, .H], ∀ m : MaskId,
    (fmtInfo lv m ^^^ 0x5412) / 2 ^ 10 = 8 * lv.formatBits + m.val ∧
    (∃ q, q < 2 ^ 5 ∧ polyProduct q 0x537 = fmtInfo lv m ^^^ 0x5412) ∧
    (printedFmtInfo lv)[m.val]? = some (fmtInfo lv m) := by decide +kernel

/-- Settles O25: the code by its 32 values, the bits and the dark module where step 4 writes them. -/
theorem formatInformationPlaced : Obligations.FormatInformationPlaced := by
  refine ⟨fun lv m => ?_, fun v lv m h1 _ => ⟨fun i hi => ⟨?_, ?_⟩, functionGrid_dark v lv m⟩⟩
  · have h := fmtInfo_code lv (by cases lv <;> decide) m
    cases lv <;> exact h
  · exact functionGrid_of_format h1 lv m hi (.inl (formatCell1_eq i).symm)
  · exact functionGrid_of_format h1 lv m hi (.inr (formatCell2_eq (side v) i).symm)

/-! ## The version information (R174, R175) -/

/-- From version 7 up bit i of the version information stands at both of its places. -/
theorem functionGrid_of_version {v i y x : Nat} (h7 : 7 ≤ v) (h2 : v ≤ 40) (lv : Level) (m : MaskId) (hi : i < 18)
    (hplace : (y, x) = (i / 3, side v - 11 + i % 3) ∨ (y, x) = (side v - 11 + i % 3, i / 3)) :
    functionGrid v lv m y x = .ofBit ((verInfo v).testBit i) := by
  have hs : 45 ≤ side v := by unfold side; omega
  have hplace' := hplace
  rw [Prod.mk.injEq, Prod.mk.injEq] at hplace'
  have halign : ∀ c ∈ alignmentCentres v, 2 < max (gap y c.1) (gap x c.2) := fun c hc => by
    have := alignmentCentre_cases (by omega) h2 hc
    rw [← Nat.not_le, near_iff]
    omega
  rw [functionGrid_of_not_format lv m (by omega) (by omega)]
  refine timingStep_eq_of_set ?_ (Module.ofBit_ne_unset _)
  rw [alignmentStep_eq, Grid.rings_of_far halign, versionStep, if_pos h7]
  refine Grid.setAll_bits _ _ hi hplace fun j hj hother => ?_
  rw [Prod.mk.injEq, Prod.mk.injEq] at hother
  omega

/-- VERINFO by its data bits, its quotient by the generator, and the table of R175. -/
theorem verInfo_code : ∀ v, v ≤ 40 → 7 ≤ v →
    verInfo v / 2 ^ 12 = v ∧ (∃ q, q < 2 ^ 6 ∧ polyProduct q 0x1F25 = verInfo v) ∧
    printedVerInfo[v - 7]? = some (verInfo v) := by decide +kernel

/-- Settles O26: the bits where step 2 writes them, the code by its 34 values. -/
theorem versionInformationPlaced : Obligations.VersionInformationPlaced := by
  refine ⟨fun v lv m h7 h2 => ⟨fun i hi => ⟨?_, ?_⟩, verInfo_code v h2 h7⟩, fun v g hv => if_neg (by omega)⟩
  · exact functionGrid_of_version h7 h2 lv m hi (.inl rfl)
  · exact functionGrid_of_version h7 h2 lv m hi (.inr rfl)

/-! ## The timing patterns (R181) -/

/-- All alignment coordinates are even (R177). -/
theorem even_of_mem_alignmentCoords {v z : Nat} (hz : z ∈ alignmentCoords v) : z % 2 = 0 := by
  unfold alignmentCoords at hz
  split at hz
  · simp at hz
  · simp only [List.mem_cons, List.mem_map] at hz
    obtain rfl | ⟨i, -, rfl⟩ := hz
    · rfl
    · rw [Nat.mul_left_comm]
      unfold side
      omega

theorem mem_of_mem_alignmentCentres {v : Nat} {c : Nat × Nat} (hc : c ∈ alignmentCentres v) :
    c.1 ∈ alignmentCoords v ∧ c.2 ∈ alignmentCoords v := by
  obtain ⟨i, j, hi, hj, -, rfl⟩ := (mem_alignmentCentres_iff v c).1 hc
  unfold alignmentCoord
  rw [List.getD_eq_getElem _ _ hi, List.getD_eq_getElem _ _ hj]
  exact ⟨List.getElem_mem hi, List.getElem_mem hj⟩

/-- Between the finder patterns row 6 and column 6 alternate: an alignment pattern across them does, too. -/
theorem functionGrid_timing {v y x : Nat} (h1 : 1 ≤ v) (h2 : v ≤ 40) (lv : Level) (m : MaskId)
    (hline : (y = 6 ∧ 8 ≤ x ∧ x + 9 ≤ side v) ∨ (x = 6 ∧ 8 ≤ y ∧ y + 9 ≤ side v)) :
    functionGrid v lv m y x = .ofBit (decide ((y + x) % 2 = 0)) := by
  have hs : 21 ≤ side v := by unfold side; omega
  by_cases hnear : ∃ c ∈ alignmentCentres v, max (gap y c.1) (gap x c.2) ≤ 2
  · obtain ⟨c, hc, hnear⟩ := hnear
    obtain ⟨hcy, hcx⟩ := mem_of_mem_alignmentCentres hc
    have hey := even_of_mem_alignmentCoords hcy
    have hex := even_of_mem_alignmentCoords hcx
    have hodd : max (gap y c.1) (gap x c.2) = 1 ↔ ¬ (y + x) % 2 = 0 := by
      have hplace := alignmentCentre_cases h1 h2 hc
      have hnear' := (near_iff y x c.1 c.2 2).1 hnear
      obtain ⟨rfl, -⟩ | ⟨rfl, -⟩ := hline
      · rw [show c.1 = 6 by omega, gap_self, Nat.zero_max, gap]
        omega
      · rw [show c.2 = 6 by omega, gap_self, Nat.max_zero, gap]
        omega
    rw [functionGrid_of_near_alignment h1 h2 lv m hc hnear]
    simp only [alignmentModule, Module.ofBit, hodd, ite_not, decide_eq_true_eq]
  · have halign : ∀ c ∈ alignmentCentres v, 2 < max (gap y c.1) (gap x c.2) := fun c hc =>
      Nat.not_le.1 fun h => hnear ⟨c, hc, h⟩
    have hversion : (y, x) ∉ versionArea v := by
      rw [mem_versionArea_iff]
      omega
    have hfinder : ∀ c ∈ [(3, 3), (3, side v - 4), (side v - 4, 3)], 4 < max (gap y c.1) (gap x c.2) :=
      (off_finders_iff hs (by omega) (by omega)).2 (by omega)
    rw [functionGrid_of_not_format lv m h1 (by omega)]
    refine timingStep_of_unset ?_ (by omega)
    rw [alignmentStep_eq, Grid.rings_of_far halign, versionStep_of_not_mem hversion, finderStep_eq,
      Grid.rings_of_far hfinder, clearStep]

/-- Settles O27: the two lines of every symbol, and the step on any grid. -/
theorem timingPatternsPlaced : Obligations.TimingPatternsPlaced := by
  refine ⟨fun v lv m i h1 h2 hlo hhi => ⟨?_, ?_⟩, fun g i => ⟨?_, ?_⟩, fun g y x hy hx => ?_⟩
  · rw [functionGrid_timing h1 h2 lv m (.inl ⟨rfl, hlo, hhi⟩), show (6 + i) % 2 = i % 2 by omega]
  · rw [functionGrid_timing h1 h2 lv m (.inr ⟨rfl, hlo, hhi⟩), show (i + 6) % 2 = i % 2 by omega]
  · split
    · next h => rw [timingStep_of_unset h (.inl rfl), show (6 + i) % 2 = i % 2 by omega]
    · next h => exact timingStep_of_set g 6 i h
  · split
    · next h => rw [timingStep_of_unset h (.inr rfl), show (i + 6) % 2 = i % 2 by omega]
    · next h => exact timingStep_of_set g i 6 h
  · by_cases h : g y x = .unset
    · rw [h, timingStep_eq_unset_iff]
      exact ⟨h, hy, hx⟩
    · exact timingStep_of_set g y x h

end Sys2Proof.Machine
end

section
/-! SUPPORT. MASK_EVAL (R211, R213), and the first minimum of the mask selection (R221). -/

namespace Sys2Proof.Machine

/-! ## MASK_EVAL -/

theorem exec_maskEval (x y : Nat) (m : MaskId) (bit : Bool) (s : State) :
    exec (.maskEval x y m bit) s = .next (s.setResult (boolByte (bit ^^ maskBit m x y))).finish := rfl

/-- A mask inverts BIT where its predicate holds, and leaves it elsewhere (R213). -/
theorem exec_maskEval_of_predicate {x y : Nat} {m : MaskId} {inverts : Prop} [Decidable inverts]
    (h : maskBit m x y = decide inverts) (bit : Bool) (s : State) :
    (inverts → exec (.maskEval x y m bit) s =
      .next { s with result := (if bit then 0 else 1), done := true, pending := none }) ∧
    (¬ inverts → exec (.maskEval x y m bit) s =
      .next { s with result := (if bit then 1 else 0), done := true, pending := none }) := by
  rw [exec_maskEval, h]
  refine ⟨fun hi => ?_, fun hi => ?_⟩
  · rw [decide_eq_true hi]
    cases bit <;> rfl
  · rw [decide_eq_false hi]
    cases bit <;> rfl

/-- Settles O34: each row of R211's table is the branch of the mask function for that mask. -/
theorem maskEvalResult : Obligations.MaskEvalResult := by
  intro x y bit s
  refine ⟨?_, ?_, ?_, ?_, ?_, ?_, ?_, ?_⟩ <;> exact exec_maskEval_of_predicate rfl bit s

/-! ## The selection of R221 -/

/-- `best` is the element of the list with the least total, the first of those with that total. -/
structure IsFirstMin (total : MaskId → Int) (l : List MaskId) (best : MaskId) : Prop where
  mem : best ∈ l
  le : ∀ m ∈ l, total best ≤ total m
  lt : ∀ m ∈ l, m < best → total best < total m

/-- One candidate more, with a higher mask than the ones before, replaces the best so far only with a lower total. -/
theorem IsFirstMin.concat {total : MaskId → Int} {l : List MaskId} {best m : MaskId} (h : IsFirstMin total l best)
    (hm : ∀ m' ∈ l, m' < m) : IsFirstMin total (l ++ [m]) (if total m < total best then m else best) := by
  have hlast : ∀ m', m' ∈ l ++ [m] ↔ m' ∈ l ∨ m' = m := by simp
  have hbest := hm best h.mem
  split
  · next hlt =>
    have hall : ∀ m' ∈ l, total m < total m' := fun m' hm' => hlt.trans_le (h.le m' hm')
    refine ⟨by simp, fun m' hm' => ?_, fun m' hm' hlow => ?_⟩
    · obtain hm' | rfl := (hlast m').1 hm'
      · exact (hall m' hm').le
      · exact le_rfl
    · obtain hm' | rfl := (hlast m').1 hm'
      · exact hall m' hm'
      · exact absurd hlow (lt_irrefl _)
  · next hge =>
    refine ⟨by simp [h.mem], fun m' hm' => ?_, fun m' hm' hlow => ?_⟩
    · obtain hm' | rfl := (hlast m').1 hm'
      · exact h.le m' hm'
      · exact not_lt.1 hge
    · obtain hm' | rfl := (hlast m').1 hm'
      · exact h.lt m' hm' hlow
      · exact absurd hlow hbest.not_gt

/-- Folding over rising masks keeps the first minimum. -/
theorem isFirstMin_foldl (total : MaskId → Int) (first : MaskId) (l : List MaskId)
    (h : (first :: l).Pairwise (· < ·)) :
    IsFirstMin total (first :: l) (l.foldl (fun best m => if total m < total best then m else best) first) := by
  induction l using List.reverseRecOn with
  | nil => exact ⟨by simp, by simp, by simp⟩
  | append_singleton l m ih =>
    rw [← List.cons_append, List.pairwise_append] at h
    obtain ⟨hl, -, hm⟩ := h
    rw [List.foldl_append, ← List.cons_append]
    exact (ih hl).concat fun m' hm' => hm m' hm' m List.mem_cons_self

/-- The mask selected is the first of the masks with the least total (R221). -/
theorem isFirstMin_selectMask (total : MaskId → Int) : IsFirstMin total [0, 1, 2, 3, 4, 5, 6, 7] (selectMask total) :=
  isFirstMin_foldl total 0 _ (by decide)

theorem mem_masks : ∀ m : MaskId, m ∈ [(0 : MaskId), 1, 2, 3, 4, 5, 6, 7] := by decide

end Sys2Proof.Machine
end

section
/-! SUPPORT. The penalty rules of a square matrix (R215 to R219): each rule's list computation is the sum over lines, positions and patterns that the rule states, and the score does not change under transposition. -/

namespace Sys2Proof.Machine

/-! ## Square matrices by their entries -/

/-- The rows of the square matrix of side n with the entries f y x, of any type. -/
def square {α : Type} (n : Nat) (f : Nat → Nat → α) : List (List α) :=
  (List.range n).map fun y => (List.range n).map fun x => f y x

theorem matrixOf_eq_square (n : Nat) (f : Nat → Nat → Bool) : matrixOf n f = square n f := rfl

theorem square_congr {α : Type} {n : Nat} {f g : Nat → Nat → α} (h : ∀ y x, y < n → x < n → f y x = g y x) :
    square n f = square n g :=
  List.map_congr_left fun y hy => List.map_congr_left fun x hx => h y x (List.mem_range.1 hy) (List.mem_range.1 hx)

theorem square_map {α β : Type} (n : Nat) (f : Nat → Nat → α) (g : α → β) :
    (square n f).map (fun r => r.map g) = square n fun y x => g (f y x) := by simp [square]

theorem transpose_map_range {α : Type} (n : Nat) (f : Nat → Nat → α) (l : List Nat) :
    transpose n (l.map fun y => (List.range n).map (f y)) = (List.range n).map fun x => l.map fun y => f y x := by
  induction l with
  | nil => simp [transpose]
  | cons y l ih => rw [List.map_cons, transpose_cons, ih, List.zipWith_map, List.zipWith_self]; rfl

/-- Transposing exchanges the row and the column of every entry. -/
theorem transpose_square {α : Type} (n : Nat) (f : Nat → Nat → α) :
    transpose n (square n f) = square n fun y x => f x y := transpose_map_range n f _

/-- A sum over the list of the numbers below n is a sum over them. -/
theorem sum_map_range (n : Nat) (g : Nat → Nat) : ((List.range n).map g).sum = ∑ i ∈ Finset.range n, g i := rfl

/-- A sum over all rows and columns goes over the n lines of each direction. -/
theorem sum_map_lines (n : Nat) (f : Nat → Nat → Bool) (g : List Bool → Nat) :
    ((matrixOf n f ++ transpose n (matrixOf n f)).map g).sum = ∑ l ∈ Finset.range n,
      (g ((List.range n).map fun k => f l k) + g ((List.range n).map fun k => f k l)) := by
  rw [matrixOf_eq_square, transpose_square, List.map_append, List.sum_append, Finset.sum_add_distrib]
  simp only [square, List.map_map, sum_map_range, Function.comp_def]

/-- The numbers below n + 1 as 0 and the successors. -/
theorem map_range_succ {α : Type} (n : Nat) (f : Nat → α) :
    (List.range (n + 1)).map f = f 0 :: (List.range n).map fun k => f (k + 1) := by
  rw [List.range_succ_eq_map, List.map_cons, List.map_map]; rfl

/-! ## Rule 1 (R215) -/

theorem isMaximalRun_iff (n : Nat) (f : Nat → Bool) (i j : Nat) : isMaximalRun n f i j = true ↔
    i < j ∧ j ≤ n ∧ (∀ k, i ≤ k → k < j → f k = f i) ∧ (i = 0 ∨ f (i - 1) ≠ f i) ∧ (j = n ∨ f j ≠ f i) := by
  simp only [isMaximalRun, Bool.and_eq_true, Bool.or_eq_true, decide_eq_true_eq, List.all_eq_true, List.mem_range,
    Bool.not_eq_true', decide_eq_false_iff_not, beq_iff_eq, bne_iff_ne]
  constructor
  · rintro ⟨⟨⟨⟨hij, hj⟩, heq⟩, hi⟩, he⟩
    exact ⟨hij, hj, fun k hik hkj => (heq k (by omega)).resolve_left (by omega), hi, he⟩
  · rintro ⟨hij, hj, heq, hi, he⟩
    refine ⟨⟨⟨⟨hij, hj⟩, fun k _ => ?_⟩, hi⟩, he⟩
    by_cases hk : i ≤ k ∧ k < j
    · exact .inr (heq k hk.1 hk.2)
    · exact .inl hk

/-- What the maximal run that begins at i adds, if one begins there (R215). -/
def startPenalty (n : Nat) (f : Nat → Bool) (i : Nat) : Nat :=
  ∑ j ∈ Finset.range (n + 1), if isMaximalRun n f i j ∧ 5 ≤ j - i then j - i - 2 else 0

theorem lineRunPenalty_eq (n : Nat) (f : Nat → Bool) :
    lineRunPenalty n f = ∑ i ∈ Finset.Ico 0 n, startPenalty n f i := by
  rw [← Finset.range_eq_Ico]; rfl

/-- Two maximal runs that begin at one place end at one place. -/
theorem isMaximalRun_end_unique {n : Nat} {f : Nat → Bool} {i j k : Nat} (hj : isMaximalRun n f i j = true)
    (hk : isMaximalRun n f i k = true) : j = k := by
  obtain ⟨hij, hjn, hjeq, -, hjend⟩ := (isMaximalRun_iff n f i j).1 hj
  obtain ⟨hik, hkn, hkeq, -, hkend⟩ := (isMaximalRun_iff n f i k).1 hk
  rcases Nat.lt_trichotomy j k with h | h | h
  · exact absurd (hkeq j (by omega) h) (hjend.resolve_left (by omega))
  · exact h
  · exact absurd (hjeq k (by omega) h) (hkend.resolve_left (by omega))

theorem startPenalty_of_run {n : Nat} {f : Nat → Bool} {i k : Nat} (h : isMaximalRun n f i k = true) :
    startPenalty n f i = runPenalty (k - i) := by
  have hk : k ∈ Finset.range (n + 1) := Finset.mem_range.2 (by have := (isMaximalRun_iff n f i k).1 h; omega)
  rw [startPenalty, Finset.sum_eq_single_of_mem k hk]
  · simp only [h, true_and, runPenalty]
  · intro j _ hjk
    exact if_neg fun hj => hjk (isMaximalRun_end_unique hj.1 h)

/-- No maximal run begins where the value goes on. -/
theorem startPenalty_inside {n : Nat} {f : Nat → Bool} {i : Nat} (h0 : i ≠ 0) (h : f (i - 1) = f i) :
    startPenalty n f i = 0 := by
  refine Finset.sum_eq_zero fun j _ => if_neg fun hj => ?_
  obtain ⟨-, -, -, hstart, -⟩ := (isMaximalRun_iff n f i j).1 hj.1
  exact hstart.elim h0 (· h)

/-- The places of one maximal run add what the run adds. -/
theorem sum_startPenalty_run {n : Nat} {f : Nat → Bool} {i k : Nat} (h : isMaximalRun n f i k = true) :
    ∑ l ∈ Finset.Ico i k, startPenalty n f l = runPenalty (k - i) := by
  obtain ⟨hik, -, heq, -, -⟩ := (isMaximalRun_iff n f i k).1 h
  rw [Finset.sum_eq_single_of_mem i (Finset.mem_Ico.2 ⟨le_rfl, hik⟩), startPenalty_of_run h]
  intro l hl hli
  obtain ⟨hil, hlk⟩ := Finset.mem_Ico.1 hl
  exact startPenalty_inside (by omega) (by rw [heq (l - 1) (by omega) (by omega), heq l hil hlk])

/-- The scan of R215's runs, at place k of a line and in a run begun at i, adds what the runs from i on add. -/
theorem sum_runsFrom (n : Nat) (f : Nat → Bool) (r i k : Nat) (hn : k + r = n) (hik : i < k)
    (heq : ∀ l, i ≤ l → l < k → f l = f i) (hi : i = 0 ∨ f (i - 1) ≠ f i) :
    ((runsFrom (f i) (k - i) ((List.range r).map fun l => f (k + l))).map runPenalty).sum =
      ∑ l ∈ Finset.Ico i n, startPenalty n f l := by
  induction r generalizing i k with
  | zero =>
    obtain rfl : k = n := hn
    have hrun : isMaximalRun k f i k = true := (isMaximalRun_iff k f i k).2 ⟨hik, le_rfl, heq, hi, .inl rfl⟩
    rw [sum_startPenalty_run hrun]
    rfl
  | succ r ih =>
    have hrest : (List.range (r + 1)).map (fun l => f (k + l)) = f k :: (List.range r).map fun l => f (k + 1 + l) := by
      rw [map_range_succ]
      simp only [Nat.add_zero, Nat.add_assoc, Nat.add_comm 1]
    rw [hrest, runsFrom]
    split
    · next hk =>
      rw [show k - i + 1 = k + 1 - i by omega]
      refine ih i (k + 1) (by omega) (by omega) (fun l hil hlk => ?_) hi
      obtain hlk | rfl : l < k ∨ l = k := by omega
      · exact heq l hil hlk
      · exact hk
    · next hk =>
      have hrun : isMaximalRun n f i k = true := (isMaximalRun_iff n f i k).2 ⟨hik, by omega, heq, hi, .inr hk⟩
      have hstart : f (k - 1) ≠ f k := by
        rw [heq (k - 1) (by omega) (by omega)]
        exact Ne.symm hk
      have hnew := ih k (k + 1) (by omega) (by omega) (fun l hkl hlk => by rw [show l = k by omega]) (.inr hstart)
      rw [Nat.add_sub_cancel_left] at hnew
      rw [List.map_cons, List.sum_cons, hnew, ← sum_startPenalty_run hrun,
        Finset.sum_Ico_consecutive _ hik.le (by omega)]

/-- The runs of a line add L − 2 for each maximal run of length L ≥ 5. -/
theorem sum_runs (n : Nat) (f : Nat → Bool) :
    ((runs ((List.range n).map f)).map runPenalty).sum = lineRunPenalty n f := by
  cases n with
  | zero => rfl
  | succ n =>
    rw [lineRunPenalty_eq, ← sum_runsFrom (n + 1) f n 0 1 (by omega) (by omega)
      (fun l _ hl => by rw [show l = 0 by omega]) (.inl rfl), map_range_succ]
    simp only [runs, Nat.add_comm 1]

/-- Settles O35, line by line. -/
theorem runPenaltyCountsMaximalRuns : Obligations.RunPenaltyCountsMaximalRuns := by
  intro n f
  rw [penalty1, sum_map_lines, rule1Of]
  simp only [sum_runs]

/-! ## Rule 2 (R216) -/

/-- The blocks between two adjacent rows are counted by their column. -/
theorem blocksBetween_map_range (n : Nat) (a c : Nat → Bool) :
    blocksBetween ((List.range n).map a) ((List.range n).map c) = ∑ x ∈ Finset.range (n - 1),
      if a x = a (x + 1) ∧ a x = c x ∧ a x = c (x + 1) then 1 else 0 := by
  induction n generalizing a c with
  | zero => rfl
  | succ n ih =>
    cases n with
    | zero => rfl
    | succ n =>
      have ih := ih (fun k => a (k + 1)) fun k => c (k + 1)
      rw [map_range_succ n, map_range_succ n] at ih
      rw [map_range_succ, map_range_succ, map_range_succ, map_range_succ, blocksBetween, ih, Nat.add_sub_cancel,
        Nat.add_sub_cancel, Finset.sum_range_succ', Nat.add_comm]

theorem zipWith_tail_map_range {α : Type} (n : Nat) (g : α → α → Nat) (r : Nat → α) :
    List.zipWith g ((List.range n).map r) ((List.range n).map r).tail =
      (List.range (n - 1)).map fun y => g (r y) (r (y + 1)) := by
  cases n with
  | zero => rfl
  | succ n =>
    rw [Nat.add_sub_cancel]
    nth_rw 2 [map_range_succ]
    rw [List.tail_cons, List.range_succ, List.map_append, ← List.append_nil ((List.range n).map fun k => r (k + 1)),
      List.zipWith_append (by simp), List.zipWith_map, List.zipWith_self]
    simp

/-- Settles O36: the blocks between each two adjacent rows, by their position. -/
theorem blockPenaltyCountsBlocks : Obligations.BlockPenaltyCountsBlocks := by
  intro n f
  rw [penalty2, matrixOf, zipWith_tail_map_range, sum_map_range, rule2Of]
  simp only [blocksBetween_map_range]

/-! ## Rule 3 (R217) -/

/-- A pattern is at the head of a line exactly when the line's first values are its own. -/
theorem isPrefixOf_map_range_iff (p : List Bool) (n : Nat) (f : Nat → Bool) :
    p.isPrefixOf ((List.range n).map f) = true ↔ p.length ≤ n ∧ ∀ k, k < p.length → p[k]? = some (f k) := by
  induction p generalizing n f with
  | nil => simp
  | cons b p ih =>
    cases n with
    | zero => simp
    | succ n =>
      rw [map_range_succ, List.isPrefixOf_cons_cons, Bool.and_eq_true, beq_iff_eq, ih, List.length_cons,
        Nat.forall_lt_succ_left]
      simp
      tauto

/-- The occurrences of a pattern in a line are counted by their start position. -/
theorem occurrences_map_range (p : List Bool) (n : Nat) (f : Nat → Bool) :
    occurrences p ((List.range n).map f) = ∑ t ∈ Finset.range (n + 1),
      if t + p.length ≤ n ∧ ∀ k, k < p.length → p[k]? = some (f (t + k)) then 1 else 0 := by
  induction n generalizing f with
  | zero => cases p <;> simp [occurrences]
  | succ n ih =>
    have hhead := isPrefixOf_map_range_iff p (n + 1) f
    rw [map_range_succ] at hhead
    rw [map_range_succ, occurrences, ih, Finset.sum_range_succ' _ (n + 1), Nat.add_comm]
    simp only [hhead, Nat.zero_add, Nat.add_right_comm _ 1, Nat.add_le_add_iff_right]

theorem sum_range_sum_map (n : Nat) (g : Nat → List Bool → Nat) (pats : List (List Bool)) :
    ∑ l ∈ Finset.range n, (pats.map (g l)).sum = (pats.map fun p => ∑ l ∈ Finset.range n, g l p).sum :=
  Multiset.sum_map_sum_map (Multiset.range n) (pats : Multiset (List Bool))

/-- Settles O37: the occurrences by line and start position, first for each line, then for each pattern. -/
theorem patternPenaltyCountsOccurrences : Obligations.PatternPenaltyCountsOccurrences := by
  refine ⟨rfl, fun n f pats => ?_⟩
  rw [penalty3, sum_map_lines, rule3Of]
  simp only [← List.sum_map_add, sum_range_sum_map, occurrences_map_range, Finset.sum_add_distrib]

/-! ## Rule 4 (R218) -/

/-- Settles O38: division by a positive number leaves a remainder from 0 up to it. -/
theorem balancePenaltyRoundsDown : Obligations.BalancePenaltyRoundsDown := by
  intro abs k n hn
  have hn : (0 : Int) < n := by omega
  refine ⟨_, rfl, ?_⟩
  rw [Int.fdiv_eq_ediv_of_nonneg _ hn.le, Int.natCast_natAbs]
  exact ⟨Int.ediv_mul_le _ hn.ne', Int.lt_ediv_add_one_mul_self _ hn⟩

/-! ## The score of a matrix (R219) -/

theorem count_true_map_range (n : Nat) (g : Nat → Bool) :
    ((List.range n).map g).count true = ∑ x ∈ Finset.range n, if g x then 1 else 0 := by
  induction n generalizing g with
  | zero => rfl
  | succ n ih => rw [map_range_succ, List.count_cons, ih, Finset.sum_range_succ']; simp

theorem count_true_matrixOf (n : Nat) (f : Nat → Nat → Bool) : (matrixOf n f).flatten.count true = darkCount n f := by
  rw [List.count_flatten, matrixOf, List.map_map, sum_map_range, darkCount]
  simp only [Function.comp_def, count_true_map_range]

/-- The score of a matrix, by the rules' sums. -/
theorem scoreOf_matrixOf (par : Params) (n : Nat) (f : Nat → Nat → Bool) : scoreOf par n (matrixOf n f) =
    { p1 := rule1Of n f
      p2 := rule2Of n f
      p3 := rule3Of par.r3Patterns n f
      p4 := penalty4 par.r4Abs (darkCount n f) (n * n)
      dark := darkCount n f
      size := n * n } := by
  simp only [scoreOf, count_true_matrixOf, runPenaltyCountsMaximalRuns n f, blockPenaltyCountsBlocks n f,
    patternPenaltyCountsOccurrences.2 n f]

theorem isScore_scoreOf (par : Params) {n : Nat} (hn : 0 < n) (f : Nat → Nat → Bool) :
    IsScore par n f (scoreOf par n (matrixOf n f)) := by
  rw [scoreOf_matrixOf]
  exact ⟨rfl, rfl, rfl, balancePenaltyRoundsDown _ _ _ (Nat.mul_pos hn hn), rfl, rfl⟩

/-- Rows and columns change places, and every line adds the same. -/
theorem rule1Of_transpose (n : Nat) (f : Nat → Nat → Bool) : rule1Of n (fun y x => f x y) = rule1Of n f :=
  Finset.sum_congr rfl fun _ _ => Nat.add_comm _ _

/-- The block at (y, x) becomes the block at (x, y), of the same four modules. -/
theorem rule2Of_transpose (n : Nat) (f : Nat → Nat → Bool) : rule2Of n (fun y x => f x y) = rule2Of n f := by
  rw [rule2Of, rule2Of, Finset.sum_comm]
  refine congrArg _ (Finset.sum_congr rfl fun y _ => Finset.sum_congr rfl fun x _ => if_congr ?_ rfl rfl)
  exact and_left_comm

theorem rule3Of_transpose (pats : List (List Bool)) (n : Nat) (f : Nat → Nat → Bool) :
    rule3Of pats n (fun y x => f x y) = rule3Of pats n f := by
  refine congrArg (40 * List.sum ·) (List.map_congr_left fun p _ => ?_)
  exact Finset.sum_congr rfl fun _ _ => Finset.sum_congr rfl fun _ _ => Nat.add_comm _ _

theorem darkCount_transpose (n : Nat) (f : Nat → Nat → Bool) : darkCount n (fun y x => f x y) = darkCount n f :=
  Finset.sum_comm

/-- The score does not change under transposition (R219): no rule's sum does. -/
theorem scoreOf_transpose (par : Params) (n : Nat) (f : Nat → Nat → Bool) :
    scoreOf par n (matrixOf n fun y x => f x y) = scoreOf par n (matrixOf n f) := by
  rw [scoreOf_matrixOf, scoreOf_matrixOf, rule1Of_transpose, rule2Of_transpose, rule3Of_transpose, darkCount_transpose]

/-- Settles O39, rule by rule. -/
theorem scoreFollowsRulesAndTransposition : Obligations.ScoreFollowsRulesAndTransposition :=
  ⟨fun par _ f hn => isScore_scoreOf par hn f, scoreOf_transpose⟩

end Sys2Proof.Machine
end

section
/-! SUPPORT. The scored domain (R214): what SCORE reads from GRID and what AUTO_MASK scores in working storage are one matrix up to transposition, and so have one score (R219 to R222). -/

namespace Sys2Proof.Machine

/-! ## SCORE on a complete domain (R220) -/

/-- A square of GRID with its cells written is read as their matrix. -/
theorem State.frameSquare_of_cells {s : State} {o n : Nat} {b : Nat → Nat → Byte}
    (h : ∀ y x, y < n → x < n → s.mem.read? (0x10000 + ((o + y) * 185 + (o + x))) = some (b y x)) :
    s.frameSquare o n = some (square n b) := by
  rw [frameSquare, gather_eq_some, square, List.map_map]
  refine List.map_congr_left fun y hy => (s.load_eq_some _ _ _ _).2 ⟨by simp, fun x hx => ?_⟩
  have hcell := h y x (List.mem_range.1 hy) hx
  rw [← Nat.add_assoc, ← Nat.add_assoc] at hcell
  simp only [Region.base, frameSide, ← Nat.add_assoc, hcell, List.getElem?_map, List.getElem?_range hx, Option.map_some]

/-- The code of a Light or Dark cell. -/
def cellCode (dark : Bool) : Byte := if dark then 1 else 0

/-- The entries of a matrix as GRID stores them (R186): transposed when GRID_TRANSPOSE. -/
def stored (par : Params) (f : Nat → Nat → Bool) (y x : Nat) : Bool := if par.gridTranspose then f x y else f y x

/-- Storing a matrix does not change its score (R219). -/
theorem scoreOf_stored (par : Params) (n : Nat) (f : Nat → Nat → Bool) :
    scoreOf par n (matrixOf n (stored par f)) = scoreOf par n (matrixOf n f) := by
  unfold stored
  split
  · exact scoreOf_transpose par n f
  · rfl

theorem scoreCells_square (v : Nat) (s : State) (f : Nat → Nat → Bool) :
    scoreCells v s (square (domainSide s.params v) fun y x => cellCode (f y x)) =
      (s.setScore (scoreOf s.params (domainSide s.params v) (matrixOf (domainSide s.params v) f))).finish := by
  have hbit : ∀ b, scorable (cellCode b) = true ∧ decide (cellCode b = 1) = b := by decide
  have hall : (square (domainSide s.params v) fun y x => cellCode (f y x)).all (fun r => r.all scorable) = true := by
    simp [square, hbit]
  rw [scoreCells, if_pos hall, square_map]
  simp only [hbit, matrixOf_eq_square]

/-- SCORE of a domain whose cells are written and Light or Dark reports the score of its matrix. -/
theorem exec_score {s : State} {v : Nat} (hv : s.AtVersion v) {f : Nat → Nat → Bool}
    (h : ∀ y x, y < domainSide s.params v → x < domainSide s.params v →
      s.mem.read? (0x10000 + ((domainStart s.params + y) * 185 + (domainStart s.params + x))) =
        some (cellCode (f y x))) :
    exec .score s = .next
      (s.setScore (scoreOf s.params (domainSide s.params v) (matrixOf (domainSide s.params v) f))).finish := by
  obtain ⟨hver, h1, h2⟩ := hv
  refine (withVersion_of_legal s v _ hver h1 h2).trans ?_
  rw [State.domain, State.frameSquare_of_cells h, Option.map_some]
  dsimp only
  split
  · rw [transpose_square, scoreCells_square v s fun y x => f x y, scoreOf_transpose]
  · rw [scoreCells_square]

theorem domainSide_pos (par : Params) (v : Nat) : 0 < domainSide par v := by
  unfold domainSide side
  split <;> omega

/-- Settles O40: the score reported is that of the matrix of the cells. -/
theorem scoreReportsPenalty : Obligations.ScoreReportsPenalty := by
  intro s v f hv n o h
  exact ⟨_, isScore_scoreOf s.params (domainSide_pos s.params v) f, exec_score hv h⟩

/-! ## The domain of a symbol (R214) -/

/-- Frame cell (y, x) of the delivered grid of a symbol (R41, R185): Dark or not. -/
def framedEntry (v : Nat) (rows : List (List Module)) (y x : Nat) : Bool :=
  decide (4 ≤ y ∧ y < 4 + side v ∧ 4 ≤ x ∧ x < 4 + side v ∧ cellOf rows (y - 4) (x - 4) = .dark)

/-- The scored domain is the part of the frame that begins where SCORE reads it. -/
theorem symbolEntry_eq_framedEntry (par : Params) (v : Nat) (rows : List (List Module)) (y x : Nat) :
    symbolEntry par v rows y x = framedEntry v rows (domainStart par + y) (domainStart par + x) := by
  unfold symbolEntry framedEntry domainStart
  cases par.scoreIncludesQz <;> simp

/-- The interior of a symbol of version v: a square of the symbol's side with every cell Light or Dark (R187). -/
structure IsInterior (v : Nat) (rows : List (List Module)) : Prop where
  length : rows.length = side v
  row_length : ∀ r ∈ rows, r.length = side v
  set : ∀ y x, y < side v → x < side v → cellOf rows y x ≠ .unset

theorem isInterior_symbolRows (par : Params) {v : Nat} (h1 : 1 ≤ v) (h2 : v ≤ 40) (lv : Level) (m : MaskId)
    (cw : List Byte) : IsInterior v (symbolRows par v lv m cw) where
  length := placedRows_length _ _ _
  row_length := placedRows_row_length _ _ _
  set y x hy hx := completedSymbolHasNoUnset par v lv m cw y x h1 h2 hy hx

theorem ofBit_decide_dark {m : Module} (h : m ≠ .unset) : .ofBit (decide (m = .dark)) = m := by
  cases m with
  | unset => contradiction
  | _ => rfl

theorem decide_ofBit_dark (b : Bool) : decide (Module.ofBit b = .dark) = b := by cases b <;> rfl

theorem code_ofBit (b : Bool) : (Module.ofBit b).code = cellCode b := by cases b <;> rfl

/-- A square of modules is the one of its cells. -/
theorem eq_square_cellOf {n : Nat} {rows : List (List Module)} (hlen : rows.length = n)
    (hr : ∀ r ∈ rows, r.length = n) : rows = square n (cellOf rows) := by
  refine List.ext_getElem (by simp [square, hlen]) fun y hy _ => ?_
  have hyr : rows[y].length = n := hr _ (List.getElem_mem hy)
  refine List.ext_getElem (by simp [square, hyr]) fun x hx _ => ?_
  simp [square, cellOf, hy, hx]

/-- The Dark cells of a square of modules, as a matrix. -/
theorem map_dark_eq_matrixOf {n : Nat} {rows : List (List Module)} (hlen : rows.length = n)
    (hr : ∀ r ∈ rows, r.length = n) : (rows.map fun r => r.map fun m => decide (m = .dark)) =
      matrixOf n fun y x => decide (cellOf rows y x = .dark) := by
  conv_lhs => rw [eq_square_cellOf hlen hr, square_map]
  rfl

namespace IsInterior

variable {v : Nat} {rows : List (List Module)} (h : IsInterior v rows)
include h

/-- The stored symbol with Light around it, cell by cell (R185, R186). -/
theorem cellOf_frame_stored (par : Params) {n y x : Nat} (hn : 4 + side v ≤ n) (hy : y < n) (hx : x < n) :
    cellOf (frame 4 n (side v) (storedRows par (side v) rows)) y x = .ofBit (stored par (framedEntry v rows) y x) := by
  have hlen := storedRows_length par (side v) rows h.length h.row_length
  have hr := storedRows_row_length par (side v) rows h.length h.row_length
  by_cases hin : 4 ≤ y ∧ y < 4 + side v ∧ 4 ≤ x ∧ x < 4 + side v
  · obtain ⟨y, rfl⟩ := Nat.exists_eq_add_of_le hin.1
    obtain ⟨x, rfl⟩ := Nat.exists_eq_add_of_le hin.2.2.1
    have hys : y < side v := by omega
    have hxs : x < side v := by omega
    rw [cellOf_frame_interior hlen hr hys hxs]
    unfold stored framedEntry
    cases hT : par.gridTranspose with
    | false =>
      have hcell := cellOf_storedRows par h.length h.row_length hys hxs
      simp only [hT, Bool.false_eq_true, if_false] at hcell ⊢
      simp [hcell, hys, hxs, ofBit_decide_dark (h.set y x hys hxs)]
    | true =>
      have hcell := cellOf_storedRows par h.length h.row_length hxs hys
      simp only [hT, if_true] at hcell ⊢
      simp [hcell, hys, hxs, ofBit_decide_dark (h.set x y hxs hys)]
  · have hlight : stored par (framedEntry v rows) y x = false := by
      unfold stored framedEntry
      split <;> exact decide_eq_false (by tauto)
    rw [cellOf_frame_border hlen hr hn hy hx hin, hlight]
    rfl

/-- What AUTO_MASK scores in working storage has the score of the symbol's domain (R214, R222). -/
theorem scoreOf_privateDomain (par : Params) : scoreOf par (domainSide par v) (privateDomain par v rows) =
    scoreOf par (domainSide par v) (matrixOf (domainSide par v) (symbolEntry par v rows)) := by
  unfold privateDomain domainSide
  cases hq : par.scoreIncludesQz with
  | false =>
    simp only [Bool.false_eq_true, if_false]
    rw [map_dark_eq_matrixOf h.length h.row_length]
    refine congrArg _ (square_congr fun y x hy hx => ?_)
    simp [symbolEntry, hq, hy, hx]
  | true =>
    have hentry : symbolEntry par v rows = framedEntry v rows := by
      funext y x
      simp [symbolEntry_eq_framedEntry, domainStart, hq]
    have hlen := storedRows_length par (side v) rows h.length h.row_length
    have hr := storedRows_row_length par (side v) rows h.length h.row_length
    have hn : 4 + side v ≤ side v + 8 := by omega
    simp only [if_true]
    rw [hentry, ← scoreOf_stored, map_dark_eq_matrixOf (frame_length 4 _ _ _ hlen hn) (frame_row_length 4 _ _ _ hr hn)]
    refine congrArg _ (square_congr fun y x hy hx => ?_)
    rw [h.cellOf_frame_stored par hn hy hx, decide_ofBit_dark]

/-- The scored domain of a stored symbol, as SCORE reads it (R186, R214). -/
theorem storeGrid_read?_domain (hv : v ≤ 40) (s : State) {y x : Nat} (hy : y < domainSide s.params v)
    (hx : x < domainSide s.params v) : (s.storeGrid v rows).mem.read?
      (0x10000 + ((domainStart s.params + y) * 185 + (domainStart s.params + x))) =
      some (cellCode (stored s.params (symbolEntry s.params v rows) y x)) := by
  have hside : side v ≤ 177 := by unfold side; omega
  have hend : domainStart s.params + domainSide s.params v ≤ 185 := by
    unfold domainStart domainSide
    split <;> omega
  have hentry : stored s.params (symbolEntry s.params v rows) y x =
      stored s.params (framedEntry v rows) (domainStart s.params + y) (domainStart s.params + x) := by
    simp only [stored, symbolEntry_eq_framedEntry]
  rw [State.storeGrid_read?_frame hv h.length h.row_length (by omega) (by omega),
    h.cellOf_frame_stored s.params (by omega) (by omega) (by omega), code_ofBit, hentry]

end IsInterior

/-! ## AUTO_MASK (R222) -/

/-- The score of the symbol of the codewords under mask m, on the domain of R214. -/
def symbolScore (par : Params) (v : Nat) (lv : Level) (cw : List Byte) (m : MaskId) : Penalty :=
  scoreOf par (domainSide par v) (matrixOf (domainSide par v) (symbolEntry par v (symbolRows par v lv m cw)))

theorem candidateScore_eq_symbolScore (par : Params) {v : Nat} (h1 : 1 ≤ v) (h2 : v ≤ 40) (lv : Level) (cw : List Byte)
    (m : MaskId) : candidateScore par v lv cw m = symbolScore par v lv cw m :=
  (isInterior_symbolRows par h1 h2 lv m cw).scoreOf_privateDomain par

/-- The mask AUTO_MASK selects for the codewords. -/
def bestMask (par : Params) (v : Nat) (lv : Level) (cw : List Byte) : MaskId :=
  selectMask fun m => (symbolScore par v lv cw m).total

/-- The state AUTO_MASK completes in for the codewords (R222). -/
def State.autoMasked (s : State) (v : Nat) (cw : List Byte) : State :=
  let best := bestMask s.params v s.level cw
  { ((s.storeGrid v (symbolRows s.params v s.level best cw)).setScore
      (symbolScore s.params v s.level cw best)).setMask best with
    scoreM := Vector.ofFn fun m => BitVec.ofInt 32 (symbolScore s.params v s.level cw m).total
    done := true
    pending := none }

/-- The state stored from the eight candidates is the one with the scores of their domains. -/
theorem autoMaskStore_finish (s : State) {v : Nat} (h1 : 1 ≤ v) (h2 : v ≤ 40) (cw : List Byte) :
    (autoMaskStore v cw (Vector.ofFn fun m => candidateScore s.params v s.level cw m) s).finish =
      s.autoMasked v cw := by
  have hscores : (fun m => candidateScore s.params v s.level cw m) = symbolScore s.params v s.level cw :=
    funext fun m => candidateScore_eq_symbolScore s.params h1 h2 s.level cw m
  have hget : ∀ m : MaskId,
      (Vector.ofFn (symbolScore s.params v s.level cw))[m] = symbolScore s.params v s.level cw m := fun m => Vector.getElem_ofFn m.isLt
  rw [hscores, autoMaskStore]
  simp only [hget, Vector.map_ofFn]
  rfl

/-- AUTO_MASK completes exactly when all codewords are written. -/
theorem exec_autoMask_eq_next {s : State} {v : Nat} (hv : s.AtVersion v) (t : State) : exec .autoMask s = .next t ↔
    ∃ cw, s.load .cw 0 (totalCodewords v) = some cw ∧ t = s.autoMasked v cw := by
  obtain ⟨hver, h1, h2⟩ := hv
  rw [exec, execAutoMask, withVersion_of_legal s v _ hver h1 h2, complete_eq_next]
  simp only [autoMaskEffect_eq_some, ← autoMaskStore_finish s h1 h2]
  constructor
  · rintro ⟨_, ⟨cw, hcw, rfl⟩, rfl⟩
    exact ⟨cw, hcw, rfl⟩
  · rintro ⟨cw, hcw, rfl⟩
    exact ⟨_, ⟨cw, hcw, rfl⟩, rfl⟩

/-- The registers AUTO_MASK left are the ones of its symbol's score. -/
theorem State.autoMasked_setScore (s : State) (v : Nat) (cw : List Byte) :
    ((s.autoMasked v cw).setScore (symbolScore s.params v s.level cw (bestMask s.params v s.level cw))).finish =
      s.autoMasked v cw := rfl

/-- Settles O42: the mask selected is the first minimum of the eight scores, and what is stored is its symbol. -/
theorem autoMaskKeepsFirstMinimum : Obligations.AutoMaskKeepsFirstMinimum := by
  intro s v cw hv hlen hcw
  have ⟨_, h1, h2⟩ := hv
  have hload : s.load .cw 0 (totalCodewords v) = some cw :=
    (s.load_eq_some _ _ _ _).2 ⟨hlen, fun k hk => hcw k (by omega)⟩
  have hmin := isFirstMin_selectMask fun m => (symbolScore s.params v s.level cw m).total
  have hsym := isInterior_symbolRows s.params h1 h2 s.level (bestMask s.params v s.level cw) cw
  refine ⟨s.autoMasked v cw, bestMask s.params v s.level cw, symbolScore s.params v s.level cw,
    (exec_autoMask_eq_next hv _).2 ⟨cw, hload, rfl⟩,
    fun m => isScore_scoreOf s.params (domainSide_pos s.params v) _, fun m => hmin.le m (mem_masks m),
    fun m => hmin.lt m (mem_masks m), fun m => ?_, rfl,
    gridHolds_storeGrid h2 hsym.length hsym.row_length (fun _ _ _ _ => rfl) rfl⟩
  exact Vector.getElem_ofFn m.isLt

/-- Settles O43: the cells SCORE reads are those of the symbol stored, whose score AUTO_MASK has reported. -/
theorem rescoringConfirmsAutoMask : Obligations.RescoringConfirmsAutoMask := by
  intro s t _ ht hterr
  rcases withVersion_cases s fun v => complete (autoMaskEffect v s) with ⟨v, hv, -⟩ | ⟨-, h⟩
  · have hv : s.AtVersion v := (s.symbolVersion_eq_some v).1 hv
    have ⟨_, h1, h2⟩ := hv
    obtain ⟨cw, -, rfl⟩ := (exec_autoMask_eq_next hv t).1 ht
    have hsym := isInterior_symbolRows s.params h1 h2 s.level (bestMask s.params v s.level cw) cw
    have hvt : (s.autoMasked v cw).AtVersion v := hv
    have hreport := exec_score hvt fun y x hy hx => hsym.storeGrid_read?_domain h2 s hy hx
    refine (hreport.trans ?_).trans (congrArg Host.Outcome.next (s.autoMasked_setScore v cw))
    exact congrArg (fun p => Host.Outcome.next ((s.autoMasked v cw).setScore p).finish) (scoreOf_stored s.params _ _)
  · obtain rfl := Host.Outcome.next.inj (ht.symm.trans h)
    simp [State.raise_eq] at hterr

end Sys2Proof.Machine
end

section
/-! SUPPORT. The control commands NOP and SRESET (R240, R241, R283), and the composite commands GENERATE and GENERATE.AUTO as their parts run one after the other (R242, R243). -/

namespace Sys2Proof.Machine

/-! ## NOP and SRESET (R240, R241) -/

theorem exec_nop (s : State) : exec .nop s = .next s.finish := rfl

theorem exec_sreset (s : State) : exec .sreset s = .next s.softReset.finish := rfl

/-- Settles O8: the completion, and the soft reset before it, written out field by field. -/
theorem controlCommandResults : Obligations.ControlCommandResults := fun s => ⟨exec_nop s, exec_sreset s⟩

/-! ## Effects run one after the other (R242, R256) -/

/-- The completion of the command before does not change what the effect does: it sets DONE and clears BUSY, which no
effect reads. -/
def IgnoresFinish (effect : State → Option State) : Prop :=
  ∀ s t : State, effect s.finish = some t → ∃ u, effect s = some u ∧ t.finish = u.finish

theorem interleaveEffect_ignoresFinish (v : Nat) : IgnoresFinish (interleaveEffect v) := fun s t h => by
  obtain ⟨d, e, hd, he, rfl⟩ := (interleaveEffect_eq_some v s.finish t).1 h
  exact ⟨_, (interleaveEffect_eq_some v s _).2 ⟨d, e, hd, he, rfl⟩, rfl⟩

theorem buildEffect_ignoresFinish (m : MaskId) (v : Nat) : IgnoresFinish (buildEffect m v) := fun s t h => by
  obtain ⟨cw, hcw, rfl⟩ := (buildEffect_eq_some m v s.finish t).1 h
  exact ⟨_, (buildEffect_eq_some m v s _).2 ⟨cw, hcw, rfl⟩, rfl⟩

theorem autoMaskEffect_ignoresFinish (v : Nat) : IgnoresFinish (autoMaskEffect v) := fun s t h => by
  obtain ⟨cw, hcw, rfl⟩ := (autoMaskEffect_eq_some v s.finish t).1 h
  exact ⟨_, (autoMaskEffect_eq_some v s _).2 ⟨cw, hcw, rfl⟩, rfl⟩

theorem eccBlocksEffect_version {v : Nat} {s t : State} (h : eccBlocksEffect v s = some t) :
    t.version = s.version := by
  obtain ⟨d, -, rfl⟩ := (eccBlocksEffect_eq_some v s t).1 h
  rfl

theorem encodeEffect_version {v : Nat} {s t : State} (h : encodeEffect v s = some t) : t.version = s.version := by
  obtain ⟨a, ha, ht⟩ := (encodeEffect_eq_some v s t).1 h
  obtain ⟨d, e, -, -, rfl⟩ := (interleaveEffect_eq_some v a t).1 ht
  exact (a.store_version _ _ _).trans (eccBlocksEffect_version ha)

@[simp] theorem State.raise_raise (s : State) (e : CommandError) : (s.raise e).raise e = s.raise e := rfl

/-- Two symbol commands in sequence answer what one command with both effects answers: at a legal version the second
effect runs on what the first left, at any other version both end with the same error (R253, R256). -/
theorem withVersion_bind {e f : Nat → State → Option State} (hf : ∀ v, IgnoresFinish (f v))
    (he : ∀ {v s t}, e v s = some t → t.version = s.version) {s a b : State}
    (ha : (withVersion s fun v => complete (e v s)) = .next a)
    (hb : (withVersion a fun v => complete (f v a)) = .next b) :
    (withVersion s fun v => complete ((e v s).bind (f v))) = .next b := by
  by_cases hlegal : 1 ≤ s.version.toNat ∧ s.version.toNat ≤ 40
  · obtain ⟨h1, h2⟩ := hlegal
    rw [withVersion_of_legal s _ _ rfl h1 h2] at ha ⊢
    obtain ⟨u, hu, rfl⟩ := (complete_eq_next _ _).1 ha
    have hver : u.finish.version.toNat = s.version.toNat :=
      congrArg BitVec.toNat (u.finish_version.trans (he hu))
    rw [withVersion_of_legal _ _ _ hver h1 h2] at hb
    obtain ⟨w, hw, rfl⟩ := (complete_eq_next _ _).1 hb
    obtain ⟨x, hx, hfin⟩ := hf _ u w hw
    exact (complete_eq_next _ _).2 ⟨x, Option.bind_eq_some_iff.2 ⟨u, hu, hx⟩, hfin⟩
  · have hillegal : s.version.toNat = 0 ∨ 41 ≤ s.version.toNat := by omega
    rw [withVersion_of_illegal s _ hillegal] at ha ⊢
    obtain rfl := Host.Outcome.next.inj ha
    rwa [withVersion_of_illegal (s.raise .unsupportedVersion) _ hillegal, State.raise_raise] at hb

/-- ECC_BLOCKS, INTERLEAVE and a last command in sequence answer what the composite command with that last effect
answers. -/
theorem composite_of_sequence {last : Nat → State → Option State} (hlast : ∀ v, IgnoresFinish (last v))
    {s a b c : State} (ha : exec .eccBlocks s = .next a) (hb : exec .interleave a = .next b)
    (hc : (withVersion b fun v => complete (last v b)) = .next c) :
    (withVersion s fun v => complete ((encodeEffect v s).bind (last v))) = .next c :=
  withVersion_bind hlast encodeEffect_version
    (withVersion_bind interleaveEffect_ignoresFinish eccBlocksEffect_version ha hb) hc

/-- Settles O44: BUILD, or AUTO_MASK, is the last command of the sequence. -/
theorem generateIsComposition : Obligations.GenerateIsComposition := fun _ _ _ _ m ha hb =>
  ⟨composite_of_sequence (buildEffect_ignoresFinish m) ha hb, composite_of_sequence autoMaskEffect_ignoresFinish ha hb⟩

/-! ## Commands that write memory only -/

section
variable {s t : State} (h : OnlyMemoryChanged s t)
include h

theorem OnlyMemoryChanged.exists_mem : ∃ mem, t = { s with mem := mem, done := true, pending := none } := ⟨_, h⟩

theorem OnlyMemoryChanged.params : t.params = s.params := by
  obtain ⟨mem, rfl⟩ := h.exists_mem
  rfl

theorem OnlyMemoryChanged.level : t.level = s.level := by
  obtain ⟨mem, rfl⟩ := h.exists_mem
  rfl

theorem OnlyMemoryChanged.atVersion {v : Nat} (hv : s.AtVersion v) : t.AtVersion v := by
  obtain ⟨mem, rfl⟩ := h.exists_mem
  exact hv

theorem OnlyMemoryChanged.trans {u : State} (h' : OnlyMemoryChanged t u) : OnlyMemoryChanged s u := by
  obtain ⟨mem, rfl⟩ := h.exists_mem
  exact h'

end

/-! ## Encoding a payload (R242) -/

/-- The ranges (base, length) ECC_BLOCKS and INTERLEAVE write (R150, R161). -/
def encodedRanges (v : Nat) (lv : Level) : List (Nat × Nat) :=
  [(0x2000, blockCount v lv * eccPerBlock v lv), (0x3000, totalCodewords v)]

/-- `b` is `s` after commands that left the codewords `cw` in CW and wrote ECC and CW only. -/
structure Encoded (s b : State) (v : Nat) (cw : List Byte) : Prop where
  frame : OnlyMemoryChanged s b
  length : cw.length = totalCodewords v
  stored : ∀ k, k < cw.length → b.mem.read? (0x3000 + k) = cw[k]?
  outside : ∀ a, (∀ r ∈ encodedRanges v s.level, ¬ (r.1 ≤ a ∧ a < r.1 + r.2)) → b.mem.read? a = s.mem.read? a

section
variable {s : State} {v : Nat} {d e : Nat → Byte} (hv : s.AtVersion v)
  (hd : s.Holds .data (dataCodewords v s.level) d)
include hv hd

/-- With the payload written ECC_BLOCKS completes; ECC[0..NB·C−1] is then written, and every other byte, the payload too,
is as before (R150). -/
theorem eccBlocks_writes_ecc : ∃ a e, exec .eccBlocks s = .next a ∧ OnlyMemoryChanged s a ∧
    a.Holds .data (dataCodewords v s.level) d ∧ a.Holds .ecc (blockCount v s.level * eccPerBlock v s.level) e ∧
    ∀ x, ¬ (0x2000 ≤ x ∧ x < 0x2000 + blockCount v s.level * eccPerBlock v s.level) →
      a.mem.read? x = s.mem.read? x := by
  obtain ⟨-, -, -, -, hT, -, -, -, hle, -⟩ := capacity_bounds v hv.2.1 hv.2.2 s.level
  obtain ⟨a, ha, hframe, hread⟩ := writes_of_exec_store 0x2000 (exec_eccBlocks hv hd) rfl
  have hlen := payloadEccBytes_length s.params.gfPoly d v s.level
  generalize payloadEccBytes s.params.gfPoly d v s.level = bytes at hread hlen
  refine ⟨a, fun k => bytes.getD k 0, ha, hframe, fun i hi => ?_, fun k hk => ?_, fun x hx => ?_⟩
  · rw [hread, if_neg (by simp only [Region.base]; omega), hd i hi]
  · have hbase : Region.ecc.base = 0x2000 := rfl
    have hlt : k < bytes.length := by omega
    rw [hread, hbase, if_pos (by omega), Nat.add_sub_cancel_left, List.getElem?_eq_getElem hlt,
      ← List.getD_eq_getElem _ 0 hlt]
  · rw [hread, if_neg (by omega)]

/-- With the payload and the correction codewords written INTERLEAVE completes; CW[0..T−1] is then written, and every other
byte is as before (R161). -/
theorem interleave_writes_cw (he : s.Holds .ecc (blockCount v s.level * eccPerBlock v s.level) e) :
    ∃ (b : State) (cw : List Byte), exec .interleave s = .next b ∧ OnlyMemoryChanged s b ∧
      cw.length = totalCodewords v ∧ (∀ k, k < cw.length → b.mem.read? (0x3000 + k) = cw[k]?) ∧
      ∀ x, ¬ (0x3000 ≤ x ∧ x < 0x3000 + totalCodewords v) → b.mem.read? x = s.mem.read? x := by
  have ⟨_, h1, h2⟩ := hv
  have hdb := dataBlocks_eq_dataBlocksOf h1 h2 hd
  have heb := eccBlocks_eq_eccBlocksOf he
  have hlen := interleaveBlocks_length s v s.level h1 h2 _ _ hdb heb
  obtain ⟨b, hb, hframe, hread⟩ := writes_of_exec_store 0x3000 (exec_interleave hv hdb heb) rfl
  refine ⟨b, _, hb, hframe, hlen, fun k hk => ?_, fun x hx => ?_⟩
  · rw [hread, if_pos (by omega), Nat.add_sub_cancel_left]
  · rw [hread, if_neg (by omega)]

/-- With the payload written ECC_BLOCKS completes, and INTERLEAVE after it. -/
theorem exists_encoded :
    ∃ a b cw, exec .eccBlocks s = .next a ∧ exec .interleave a = .next b ∧ Encoded s b v cw := by
  obtain ⟨a, e, ha, haframe, hda, hea, haout⟩ := eccBlocks_writes_ecc hv hd
  rw [← haframe.level] at hda hea
  obtain ⟨b, cw, hb, hbframe, hlen, hstored, hbout⟩ := interleave_writes_cw (haframe.atVersion hv) hda hea
  refine ⟨a, b, cw, ha, hb, haframe.trans hbframe, hlen, hstored, fun x hx => ?_⟩
  exact (hbout x (hx _ (List.mem_cons_of_mem _ List.mem_cons_self))).trans (haout x (hx _ List.mem_cons_self))

end

/-- Once a symbol is stored over the codewords, CW still holds them, and GRID and what stays are as `s` sees them. -/
theorem Encoded.symbol_stored {s b t : State} {v : Nat} {cw : List Byte} {cell : Nat → Nat → Module}
    (h : Encoded s b v cw) (hv : s.AtVersion v) (hg : GridHolds b t v cell []) :
    (∀ k, k < cw.length → t.mem.read? (0x3000 + k) = cw[k]?) ∧ GridHolds s t v cell (encodedRanges v s.level) := by
  obtain ⟨hcells, hborder, hframe⟩ := hg
  obtain ⟨-, -, -, -, -, -, -, -, hle, -⟩ := capacity_bounds v hv.2.1 hv.2.2 s.level
  have hlen := h.length
  exact ⟨fun k hk => (hframe _ (by omega) (by simp)).trans (h.stored k hk), h.frame.params ▸ hcells, hborder,
    fun a ha hout => (hframe a ha (by simp)).trans (h.outside a hout)⟩

/-! ## GENERATE and GENERATE.AUTO (R242, R243) -/

/-- Settles O45: the parts complete one after the other, and the last one stores the symbol of the codewords in CW. -/
theorem generateCompletes : Obligations.GenerateCompletes := by
  intro s v m d hv hd ranges
  obtain ⟨a, b, cw, ha, hb, henc⟩ := exists_encoded hv hd
  have hvb := henc.frame.atVersion hv
  obtain ⟨mem, rfl⟩ := henc.frame.exists_mem
  have compose := fun c => generateIsComposition s a _ c m ha hb
  constructor
  · obtain ⟨t, ht, hframe, hgrid⟩ := buildStoresSymbol _ v m cw hvb henc.length henc.stored
    obtain ⟨hcw, hgrid⟩ := henc.symbol_stored hv hgrid
    exact ⟨t, cw, (compose t).1 ht, henc.length, hcw, hframe, hgrid⟩
  · obtain ⟨t, best, p, ht, -, -, -, -, hframe, hgrid⟩ :=
      autoMaskKeepsFirstMinimum _ v cw hvb henc.length henc.stored
    obtain ⟨hcw, hgrid⟩ := henc.symbol_stored hv hgrid
    refine ⟨t, cw, best, (compose t).2 ht, henc.length, hcw, ?_, hgrid⟩
    generalize t.mem = mem', t.scoreM = scoreM at hframe
    subst hframe
    rfl

end Sys2Proof.Machine
end

section
/-! SUPPORT. How a command can end, said once for all commands (R250 to R259): with one of the errors R253 to R257, or with its effect done, which changes the registers and regions of its row of the table of outcomes only. -/

namespace Sys2Proof.Machine

/-! ## The illegal word (R252) -/

theorem engineTurn_of_illegal {s : State} {w : Word} (hp : s.pending = some w) (hd : decodeWord w = none) :
    engineTurn s = .next (s.raise .illegalCmd) := by
  rw [engineTurn, hp]
  simp only [completeWord, hd]

/-- Settles O6: the engine's turn is the step at both places, and raises ILLEGAL_CMD. -/
theorem illegalWordEndsWithIllegalCmd : Obligations.IllegalWordEndsWithIllegalCmd := by
  refine fun s w hf hp hd => ⟨fun he => ?_, fun rest he => ?_⟩
  · rw [step_of_no_event hf he]
    exact engineTurn_of_illegal hp hd
  · rw [step_of_event hf he]
    exact engineTurn_of_illegal (s := { s with events := rest }) hp hd

/-! ## Operand errors (R254, R255) -/

/-- An error completion is what the statements call ending with that error's code (R256). -/
theorem EndsWithError.of_raise {i : Instr} {s : State} {e : CommandError} (h : exec i s = .next (s.raise e)) :
    EndsWithError i s e.code := h

theorem exec_gfInv_zero (s : State) : exec (.gfInv 0) s = .next (s.raise .gfZero) := rfl

theorem exec_gfLog_zero (s : State) : exec (.gfLog 0) s = .next (s.raise .gfZero) := rfl

theorem exec_genPoly_zero (s : State) : exec (.genPoly 0) s = .next (s.raise .range) := rfl

theorem State.rsInRange_eq_false {s : State} {c : Nat}
    (h : c = 0 ∨ 4096 < s.rsSrc.toNat + s.rsLen.toNat ∨ 4096 < s.rsDst.toNat + c) : s.rsInRange c = false := by
  simp only [rsInRange, Bool.and_eq_false_iff, decide_eq_false_iff_not]
  omega

theorem exec_rsEnc_of_not_rsInRange {s : State} {c : Nat} (h : s.rsInRange c = false) :
    exec (.rsEnc c) s = .next (s.raise .range) := by
  rw [exec, execRsEnc, h]
  exact if_neg Bool.false_ne_true

/-- Settles O15: each refused operand selects the error branch, and GF_MUL and GF_EXP have none. -/
theorem operandErrors : Obligations.OperandErrors := by
  refine fun s => ⟨.of_raise (exec_gfInv_zero s), .of_raise (exec_gfLog_zero s), fun a n t h => ?_,
    .of_raise (exec_genPoly_zero s),
    fun c hc => .of_raise (exec_rsEnc_of_not_rsInRange (State.rsInRange_eq_false hc))⟩
  rw [exec_gfMul, exec_gfMul, exec_gfExp] at h
  rcases h with h | h | h <;> cases h <;> exact ⟨rfl, rfl⟩

/-! ## GRID_INCOMPLETE (R257) -/

/-- The scored domain of written cells is their matrix, transposed where GRID is (R186, R214). -/
theorem State.domain_of_cells {s : State} {v : Nat} {g : Nat → Nat → Byte}
    (h : ∀ y x, y < domainSide s.params v → x < domainSide s.params v →
      s.mem.read? (0x10000 + ((domainStart s.params + y) * 185 + (domainStart s.params + x))) = some (g y x)) :
    s.domain v = some (square (domainSide s.params v) g) ∨
      s.domain v = some (square (domainSide s.params v) fun y x => g x y) := by
  rw [domain, frameSquare_of_cells h, Option.map_some]
  split
  · exact .inr (congrArg some (transpose_square _ g))
  · exact .inl rfl

theorem scoreCells_of_not_scorable {s : State} {v n y x : Nat} {g : Nat → Nat → Byte} (hy : y < n) (hx : x < n)
    (hg : scorable (g y x) = false) : scoreCells v s (square n g) = s.raise .gridIncomplete := by
  refine if_neg fun hall => ?_
  simp only [square, List.all_eq_true, List.forall_mem_map, List.mem_range] at hall
  exact absurd (hall y hy x hx) (by simp [hg])

theorem exec_score_of_domain {s : State} {v : Nat} {rows : List (List Byte)} (hv : s.AtVersion v)
    (h : s.domain v = some rows) : exec .score s = .next (scoreCells v s rows) := by
  obtain ⟨hver, h1, h2⟩ := hv
  refine (withVersion_of_legal s v _ hver h1 h2).trans ?_
  rw [h]

/-- Settles O41: the cell stands in the domain's matrix, transposed or not, and one such cell is enough. -/
theorem scoreRefusesIncompleteGrid : Obligations.ScoreRefusesIncompleteGrid := by
  intro s v g y₀ x₀ hv n o h hy hx hcode
  have hg : scorable (g y₀ x₀) = false := by rcases hcode with hc | hc <;> rw [hc] <;> decide
  refine EndsWithError.of_raise (e := .gridIncomplete) ?_
  rcases State.domain_of_cells h with hd | hd
  · rw [exec_score_of_domain hv hd, scoreCells_of_not_scorable (n := domainSide s.params v) hy hx hg]
  · rw [exec_score_of_domain hv hd,
      scoreCells_of_not_scorable (n := domainSide s.params v) (g := fun y x => g x y) hx hy hg]

/-! ## What a command's row of the table of outcomes lets it change (R259) -/

/-- Two regions are one or lie apart (R62). -/
theorem Region.eq_or_apart (r r' : Region) : r' = r ∨ r.base + r.size ≤ r'.base ∨ r'.base + r'.size ≤ r.base := by
  cases r <;> cases r' <;> decide

/-- A store inside one region leaves the bytes of every other region (R62, R74). -/
theorem State.store_read?_of_ne {r r' : Region} {j k : Nat} {bs : List Byte} (s : State) (hfit : j + bs.length ≤ r.size)
    (hr : r' ≠ r) (hk : k < r'.size) : (s.store r j bs).mem.read? (r'.base + k) = s.mem.read? (r'.base + k) := by
  rw [store_read?, if_neg]
  have := (Region.eq_or_apart r r').resolve_left hr
  omega

/-- `u` is `s` but for the registers and regions that the row of `i` names (R241, R259), and for DONE and BUSY. -/
structure WithinTargets (i : Instr) (s u : State) : Prop where
  mem : i.WellFormed → ∀ (r : Region) (k : Nat), r ∉ writtenRegions i → k < r.size →
    u.mem.read? (r.base + k) = s.mem.read? (r.base + k)
  err : u.err = s.err
  errCode : u.errCode = s.errCode
  ctrlIE : u.ctrlIE = s.ctrlIE
  lastCmd : u.lastCmd = s.lastCmd
  params : u.params = s.params
  faulted : u.faulted = s.faulted
  rst : u.rst = s.rst
  events : u.events = s.events
  responses : u.responses = s.responses
  draws : u.draws = s.draws
  config : i ≠ .sreset → u.ovr = s.ovr ∧ u.version = s.version ∧ u.ecl = s.ecl ∧
    u.rsSrc = s.rsSrc ∧ u.rsLen = s.rsLen ∧ u.rsDst = s.rsDst
  result : writesResult i = false → u.result = s.result
  maskSel : writesMaskSel i = false → u.mask = s.mask ∧ u.mvalid = s.mvalid
  score : writesScore i = false → u.score = s.score ∧ u.scoreR1 = s.scoreR1 ∧ u.scoreR2 = s.scoreR2 ∧
    u.scoreR3 = s.scoreR3 ∧ u.scoreR4 = s.scoreR4 ∧ u.scoreDark = s.scoreDark ∧ u.scoreN = s.scoreN
  scoreM : writesScoreM i = false → u.scoreM = s.scoreM

namespace WithinTargets

theorem refl (i : Instr) (s : State) : WithinTargets i s s := by
  constructor <;> simp

theorem softReset (s : State) : WithinTargets .sreset s s.softReset :=
  { refl .sreset s with
    config := fun h => absurd rfl h
    result := nofun
    maskSel := nofun
    score := nofun
    scoreM := nofun }

variable {i : Instr} {s a u : State} {v : Nat} (ha : WithinTargets i s a)
include ha

theorem setResult (hw : writesResult i = true) (b : Byte) : WithinTargets i s (a.setResult b) :=
  { ha with result := fun h => absurd (hw.symm.trans h) nofun }

theorem setMask (hw : writesMaskSel i = true) (m : MaskId) : WithinTargets i s (a.setMask m) :=
  { ha with maskSel := fun h => absurd (hw.symm.trans h) nofun }

theorem setScore (hw : writesScore i = true) (p : Penalty) : WithinTargets i s (a.setScore p) :=
  { ha with score := fun h => absurd (hw.symm.trans h) nofun }

theorem setScoreM (hw : writesScoreM i = true) (x : Vector Word 8) : WithinTargets i s { a with scoreM := x } :=
  { ha with scoreM := fun h => absurd (hw.symm.trans h) nofun }

theorem store {r : Region} (hr : r ∈ writtenRegions i) {j : Nat} {bs : List Byte}
    (hfit : i.WellFormed → j + bs.length ≤ r.size) : WithinTargets i s (a.store r j bs) :=
  { ha with
    mem := fun hi r' k hr' hk =>
      (a.store_read?_of_ne (hfit hi) (fun h => hr' (by rwa [h])) hk).trans (ha.mem hi r' k hr' hk) }

theorem storeGrid (hw : .grid ∈ writtenRegions i) (hv : v ≤ 40) (rows : List (List Module)) (hl : rows.length = side v)
    (hr : ∀ r ∈ rows, r.length = side v) : WithinTargets i s (a.storeGrid v rows) :=
  ha.store hw fun _ => by
    rw [frameBytes_length a.params (side v) rows hl hr (by unfold side; omega)]
    decide

theorem storeSymbol (hw : .grid ∈ writtenRegions i) (hv : v ≤ 40) (par : Params) (lv : Level) (m : MaskId)
    (cw : List Byte) : WithinTargets i s (a.storeGrid v (symbolRows par v lv m cw)) :=
  ha.storeGrid hw hv _ (placedRows_length _ _ _) (placedRows_row_length _ _ _)

theorem eccBlocks (hw : .ecc ∈ writtenRegions i) (h1 : 1 ≤ v) (h2 : v ≤ 40) (h : eccBlocksEffect v a = some u) :
    WithinTargets i s u := by
  obtain ⟨d, hd, rfl⟩ := (eccBlocksEffect_eq_some v a u).1 h
  refine ha.store hw fun _ => ?_
  obtain ⟨-, -, -, -, hT, -, -, -, hle, -⟩ := capacity_bounds v h1 h2 a.level
  rw [eccBytes_length a _ v a.level d hd, Region.size]
  omega

theorem interleave (hw : .cw ∈ writtenRegions i) (h1 : 1 ≤ v) (h2 : v ≤ 40) (h : interleaveEffect v a = some u) :
    WithinTargets i s u := by
  obtain ⟨d, e, hd, he, rfl⟩ := (interleaveEffect_eq_some v a u).1 h
  refine ha.store hw fun _ => ?_
  obtain ⟨-, -, -, -, -, -, -, -, hle, -⟩ := capacity_bounds v h1 h2 a.level
  rw [interleaveBlocks_length a v a.level h1 h2 d e hd he, Region.size]
  omega

theorem encode (hecc : .ecc ∈ writtenRegions i) (hcw : .cw ∈ writtenRegions i) (h1 : 1 ≤ v) (h2 : v ≤ 40)
    (h : encodeEffect v a = some u) : WithinTargets i s u := by
  obtain ⟨b, hb, hu⟩ := (encodeEffect_eq_some v a u).1 h
  exact (ha.eccBlocks hecc h1 h2 hb).interleave hcw h1 h2 hu

theorem build (hgrid : .grid ∈ writtenRegions i) (hmask : writesMaskSel i = true) (hv : v ≤ 40) (m : MaskId)
    (h : buildEffect m v a = some u) : WithinTargets i s u := by
  obtain ⟨cw, -, rfl⟩ := (buildEffect_eq_some m v a u).1 h
  exact (ha.storeSymbol hgrid hv _ _ m cw).setMask hmask m

theorem autoMask (hgrid : .grid ∈ writtenRegions i) (hmask : writesMaskSel i = true) (hscore : writesScore i = true)
    (hscoreM : writesScoreM i = true) (hv : v ≤ 40) (h : autoMaskEffect v a = some u) : WithinTargets i s u := by
  obtain ⟨cw, -, rfl⟩ := (autoMaskEffect_eq_some v a u).1 h
  exact (((ha.storeSymbol hgrid hv _ _ _ cw).setScore hscore _).setMask hmask _).setScoreM hscoreM _

end WithinTargets

/-! ## How a command ends (R251, R256) -/

/-- The errors a command can end with (R253 to R257): not ILLEGAL_CMD, which is a word's that is no command, and
UNSUPPORTED_VERSION at no legal version. -/
inductive CommandError.RaisedAt (s : State) : CommandError → Prop where
  | unsupportedVersion (h : s.symbolVersion = none) : RaisedAt s .unsupportedVersion
  | gfZero : RaisedAt s .gfZero
  | range : RaisedAt s .range
  | gridIncomplete : RaisedAt s .gridIncomplete

theorem CommandError.RaisedAt.two_le_code {s : State} {e : CommandError} (h : e.RaisedAt s) : 2 ≤ e.code.toNat := by
  cases h <;> decide

/-- The states in which a command that completes can end. -/
inductive Ends (i : Instr) (s : State) : State → Prop where
  | error {e : CommandError} (h : e.RaisedAt s) : Ends i s (s.raise e)
  | success {u : State} (h : WithinTargets i s u) : Ends i s u.finish

namespace Ends

variable {i : Instr} {s t : State}

theorem setResult (hw : writesResult i = true) (b : Byte) : Ends i s (s.setResult b).finish :=
  .success ((WithinTargets.refl i s).setResult hw b)

/-- A field command ends with GF_ZERO at 0 and with a result elsewhere (R254). -/
theorem zeroChecked {a b : Byte} (hw : writesResult i = true)
    (h : (if a = 0 then .next (s.raise .gfZero) else .next (s.setResult b).finish) = (.next t : Result)) : Ends i s t := by
  split at h <;> cases h
  · exact .error .gfZero
  · exact .setResult hw b

/-- A symbol command ends with the version error or with its effect at a legal version (R253). -/
theorem symbolCommand {effect : Nat → State → Option State}
    (h : (withVersion s fun v => complete (effect v s)) = .next t)
    (heffect : ∀ v u, 1 ≤ v → v ≤ 40 → effect v s = some u → WithinTargets i s u) : Ends i s t := by
  rcases withVersion_cases s fun v => complete (effect v s) with ⟨v, hv, hk⟩ | ⟨hv, hk⟩
  · obtain ⟨-, h1, h2⟩ := (s.symbolVersion_eq_some v).1 hv
    obtain ⟨u, hu, rfl⟩ := (complete_eq_next _ t).1 (hk.symm.trans h)
    exact .success (heffect v u h1 h2 hu)
  · cases hk.symm.trans h
    exact .error (.unsupportedVersion hv)

/-- A composite command ends so when its last part stays within the targets (R242, R243). -/
theorem composite {last : Nat → State → Option State} (hecc : .ecc ∈ writtenRegions i) (hcw : .cw ∈ writtenRegions i)
    (h : (withVersion s fun v => complete ((encodeEffect v s).bind (last v))) = .next t)
    (hlast : ∀ v b u, v ≤ 40 → WithinTargets i s b → last v b = some u → WithinTargets i s u) : Ends i s t := by
  refine symbolCommand (effect := fun v s => (encodeEffect v s).bind (last v)) h fun v u h1 h2 hu => ?_
  obtain ⟨b, hb, hu⟩ := Option.bind_eq_some_iff.1 hu
  exact hlast v b u h2 ((WithinTargets.refl i s).encode hecc hcw h1 h2 hb) hu

theorem genPoly {c : Nat} (h : exec (.genPoly c) s = .next t) : Ends (.genPoly c) s t := by
  by_cases h0 : c = 0
  · subst h0
    cases (exec_genPoly_zero s).symm.trans h
    exact .error .range
  · cases (exec_genPoly h0 s).symm.trans h
    refine .success ((WithinTargets.refl _ s).store (by simp [writtenRegions]) fun hc => ?_)
    have hc : c < 256 := of_decide_eq_true hc
    rw [genPoly_length, Region.size]
    omega

theorem rsEnc {c : Nat} (h : execRsEnc c s = .next t) : Ends (.rsEnc c) s t := by
  rcases execRsEnc_cases c s with ⟨-, he⟩ | ⟨-, -, he⟩ | ⟨m, hr, -, he⟩ <;> cases he.symm.trans h
  · exact .error .range
  · refine .success ((WithinTargets.refl _ s).store (by simp [writtenRegions]) fun _ => ?_)
    rw [rsRemainder_length, Region.size]
    simp [State.rsInRange] at hr
    omega

theorem score (h : execScore s = .next t) : Ends .score s t := by
  rcases execScore_cases s with ⟨hv, he⟩ | ⟨v, -, -, he⟩ | ⟨v, rows, -, -, he⟩ <;> cases he.symm.trans h
  · exact .error (.unsupportedVersion hv)
  · rw [scoreCells]
    split
    · exact .success ((WithinTargets.refl _ s).setScore rfl _)
    · exact .error .gridIncomplete

end Ends

/-- How every command that answers a next state ends. -/
theorem exec_ends {i : Instr} {s t : State} (h : exec i s = .next t) : Ends i s t := by
  have same := WithinTargets.refl i s
  cases i with
  | nop => cases h; exact .success same
  | sreset => cases h; exact .success (.softReset s)
  | gfAdd a b => cases h; exact .setResult rfl _
  | gfMul a b => cases h; exact .setResult rfl _
  | gfInv a => exact .zeroChecked rfl h
  | gfExp n => cases h; exact .setResult rfl _
  | gfLog a => exact .zeroChecked rfl h
  | genPoly c => exact .genPoly h
  | rsEnc c => exact .rsEnc h
  | eccBlocks => exact .symbolCommand h fun v u h1 h2 => same.eccBlocks (by decide) h1 h2
  | interleave => exact .symbolCommand h fun v u h1 h2 => same.interleave (by decide) h1 h2
  | buildFunc m =>
    refine .symbolCommand (effect := fun v s => some (s.storeGrid v (gridRows (side v) (functionGrid v s.level m)))) h ?_
    rintro v u - h2 ⟨⟩
    exact same.storeGrid (by simp [writtenRegions]) h2 _ (gridRows_length _ _) (by simp [gridRows])
  | build m => exact .symbolCommand h fun v u _ h2 => same.build (by simp [writtenRegions]) rfl h2 m
  | maskEval x y m bit => cases h; exact .setResult rfl _
  | score => exact .score h
  | autoMask => exact .symbolCommand h fun v u _ h2 => same.autoMask (by decide) rfl rfl rfl h2
  | generate m =>
    exact .composite (by simp [writtenRegions]) (by simp [writtenRegions]) h fun v b u h2 hb =>
      hb.build (by simp [writtenRegions]) rfl h2 m
  | generateAuto =>
    exact .composite (by decide) (by decide) h fun v b u h2 hb => hb.autoMask (by decide) rfl rfl rfl h2

/-! ## The statements over all commands -/

/-- A command that is its version check first ends with the version error at an illegal version (R253). -/
theorem EndsWithError.unsupportedVersion {i : Instr} {s : State} {k : Nat → Result}
    (h : s.version.toNat = 0 ∨ 41 ≤ s.version.toNat) (hi : exec i s = withVersion s k) : EndsWithError i s 2 :=
  .of_raise (hi.trans (withVersion_of_illegal s k h))

/-- Settles O21: the version check is every symbol command's first step, and no other error has code 2. -/
theorem unsupportedVersionErrors : Obligations.UnsupportedVersionErrors := by
  refine ⟨fun s m h => ?_, fun s t v i hv hc h => ?_⟩
  · exact ⟨.unsupportedVersion h rfl, .unsupportedVersion h rfl, .unsupportedVersion h rfl, .unsupportedVersion h rfl,
      .unsupportedVersion h rfl, .unsupportedVersion h rfl, .unsupportedVersion h rfl, .unsupportedVersion h rfl⟩
  · cases exec_ends h with
    | error he =>
      cases he with
      | unsupportedVersion hn => exact absurd (hn.symm.trans ((s.symbolVersion_eq_some v).2 hv)) nofun
      | gfZero | range | gridIncomplete => simp [CommandError.code]
    | success hu => exact hu.errCode ▸ hc

/-- Settles O48: a raised error is written over `s` itself, and an effect leaves ERR and ERRCODE. -/
theorem errorsArePrecise : Obligations.ErrorsArePrecise := by
  intro i s t herr hcode h
  cases exec_ends h with
  | error he => exact ⟨fun _ => ⟨he.two_le_code, (CommandError.code_bounds _).2, rfl⟩, nofun⟩
  | success hu =>
    exact ⟨fun ht => absurd (ht.symm.trans (hu.err.trans herr)) nofun, fun _ => hu.errCode.trans hcode⟩

/-- Settles O47: an error writes STATUS only, and an effect stays within the row of its command. -/
theorem commandsWriteOnlyTheirTargets : Obligations.CommandsWriteOnlyTheirTargets := by
  intro i s t hi h
  cases exec_ends h with
  | error _ => simp
  | success hu =>
    exact ⟨hu.mem hi, rfl, rfl, hu.ctrlIE, hu.lastCmd, hu.params, hu.faulted, hu.rst, hu.events, hu.responses, hu.draws,
      hu.config, hu.result, hu.maskSel, hu.score, hu.scoreM⟩

end Sys2Proof.Machine
end

section
/-! SUPPORT. The reset edge (R280 to R282) and the release of BUSY (R46, R300): the engine's turn releases it, and every other event is taken off the schedule. -/

namespace Sys2Proof.Machine

/-! ## The reset input (R280) -/

theorem step_of_rst {s : State} {level : Bool} {rest : List Event} (hf : s.faulted = false)
    (he : s.events = .rst level :: rest) : step s = .next (({ s with events := rest } : State).hardReset level) :=
  step_of_event hf he

/-- A transaction is dropped while the reset input is asserted (R280, log 10). -/
theorem step_of_host_dropped {s : State} {x : Txn} {rest : List Event} (hf : s.faulted = false) (hr : s.rst = true)
    (he : s.events = .host x :: rest) : step s = .next { s with events := rest } := by
  rw [step_of_event hf he]
  simp [handleEvent, hr]

/-- Settles O57: the edge is `hardReset`, whose fields are the reset values. -/
theorem hardResetState : Obligations.HardResetState := by
  refine ⟨fun s level rest hf he => ?_, fun s x rest => step_of_host_dropped⟩
  rw [step_of_rst hf he, State.hardReset, hf]
  rfl

/-! ## The events a step takes off the schedule -/

theorem busWrite_events (s : State) (addr : Addr) (w : Word) (strb : BitVec 4) :
    (s.busWrite addr w strb).2.events = s.events :=
  congrArg (·.2.events) (busWrite_withEvents s s.events addr w strb)

theorem transact_events (s : State) (x : Txn) : (s.transact x).events = s.events := by
  cases x with
  | read addr => rfl
  | write addr w strb => exact busWrite_events s addr w strb

/-! ## The release of BUSY (R46, R300) -/

/-- No command waits for the engine any more: BUSY is 0, or the model fault of R264 is recorded. -/
def State.Released (s : State) : Prop := s.busy = false ∨ s.faulted = true

theorem Completion.busy {i : Instr} {s t : State} (h : Completion i s t) : t.busy = false := by
  cases h <;> rfl

theorem engineTurn_released {s t : State} (h : engineTurn s = .next t) : t.Released := by
  rcases engineTurn_cases s t h with ⟨hp, rfl⟩ | ⟨w, -, -, rfl⟩ | ⟨w, i, -, -, he⟩ | ⟨w, i, f, -, -, -, rfl⟩
  · exact .inl (by rw [State.busy, hp]; rfl)
  · exact .inl rfl
  · exact .inl (exec_completes i s t he).busy
  · exact .inr rfl

/-- A step that does not release BUSY has taken one event off the schedule. -/
theorem step_released_or_takes_event {s t : State} (h : step s = .next t) :
    t.Released ∨ ∃ e, s.events = e :: t.events := by
  obtain ⟨-, ⟨-, ht⟩ | ⟨rest, -, ht⟩ | ⟨rest, l, -, rfl⟩ | ⟨rest, x, he, -, rfl⟩ | ⟨rest, x, he, -, ht⟩⟩ :=
    step_cases s t h
  · exact .inl (engineTurn_released ht)
  · exact .inl (engineTurn_released ht)
  · exact .inl (.inl rfl)
  · exact .inr ⟨_, he⟩
  · exact .inr ⟨_, by rw [ht, transact_events, he]⟩

theorem core_run_succ {s u : State} (h : step s = .next u) (n : Nat) :
    Sys2Proof.core.run (n + 1) s = Sys2Proof.core.run n u := by
  have h : Sys2Proof.core.step s = .next u := h
  simp only [Host.Core.run, h]

/-- A run through the schedule and the engine's turn at its end releases BUSY, whatever was pending. -/
theorem run_released {evs : List Event} {s : State} (hs : s.events = evs) (hf : s.faulted = false) :
    ∃ n t, n ≤ evs.length + 1 ∧ Sys2Proof.core.run n s = .next t ∧ t.Released := by
  induction evs generalizing s with
  | nil =>
    obtain ⟨t, ht⟩ := step_isNext s hf
    refine ⟨1, t, Nat.le_refl 1, core_run_succ ht 0, ?_⟩
    exact (step_released_or_takes_event ht).resolve_right fun ⟨e, he⟩ => nomatch hs.symm.trans he
  | cons e evs ih =>
    obtain ⟨u, hu⟩ := step_isNext s hf
    by_cases hr : u.Released
    · exact ⟨1, u, Nat.le_add_left 1 _, core_run_succ hu 0, hr⟩
    · obtain ⟨e', he⟩ := (step_released_or_takes_event hu).resolve_left hr
      have hevs : u.events = evs := (List.cons.inj (he.symm.trans hs)).2
      have huf : u.faulted = false := eq_false_of_ne_true fun h => hr (.inr h)
      obtain ⟨n, t, hn, hrun, ht⟩ := ih hevs huf
      exact ⟨n + 1, t, Nat.succ_le_succ hn, (core_run_succ hu n).trans hrun, ht⟩

/-- Settles O49, by induction on the schedule: each of its events releases BUSY or leaves a shorter one. -/
theorem pendingCommandReleasesBusyOrFaults : Obligations.PendingCommandReleasesBusyOrFaults :=
  fun _ hf _ => run_released rfl hf

end Sys2Proof.Machine
end
